-- ==== Sys2Proof/Word.lean ====
section
/-! DEFINITION. The bit vectors of the block: the 32-bit words of every register, offset and data
value (rules R5, R7 of 00_scope.md), the bytes of a byte-addressed bus (rule R43 of 20_memory.md) and
the 66-bit transaction word (rule R59 of 30_encoding.md). -/

namespace Sys2Proof

/-- `Word32` of rule R7: a register value, an offset, a write value or a read value. -/
abbrev Word := BitVec 32

/-- One byte lane of a byte-addressed bus (rule R43). -/
abbrev Byte := BitVec 8

/-- The transaction word `T` of rule R59: `op` in bits 65:64, `offset` in bits 63:32, `wdata` in bits
31:0. The layout is the spec's own choice (92_eei_decisions.md D2; log entry 1). -/
abbrev TxnWord := BitVec 66

end Sys2Proof
end

