-- ==== Sys2Proof/Syntax.lean ====
section
/-! DEFINITION. The vocabulary of the block: its registers, its three kinds of transaction, the
instructions (one constructor of `Instr` per row of the opcode map, rule R72 of 30_encoding.md), the
responses (rule R58) and the diagnostic events (rule R93 of 60_exceptions.md). -/

namespace Sys2Proof

/-- The four bus-visible registers (rule R16). They are named and never indexed (rule R29). -/
inductive Reg where
  | ctrl
  | status
  | dmaAddr
  | dmaLen
deriving DecidableEq, Repr

/-- The two outcomes of decoding an offset (rule R62): a register of the map, or no register. -/
inductive Target where
  | mapped (r : Reg)
  | unmapped
deriving DecidableEq, Repr

/-- The closed enumeration of commands a CTRL write value carries (rule R63). -/
inductive Command where
  | start
  | reset
  | unrecognized
deriving DecidableEq, Repr

/-- The three kinds of transaction with their request fields (rules R57, R58). -/
inductive Txn where
  /-- `BusRead(offset)`, issued by a bus master. -/
  | busRead (offset : Word)
  /-- `BusWrite(offset, wdata)`, issued by a bus master. -/
  | busWrite (offset wdata : Word)
  /-- `Reset()`, issued by the host reset orchestration. -/
  | reset
deriving DecidableEq, Repr

/-- The response of a completed transaction (rules R9, R58). There is no error response (rule R92). -/
inductive Resp where
  /-- `ReadData(rdata)`: the response of every `BusRead`. -/
  | readData (rdata : Word)
  /-- `Done`: completion without data, the response of every `BusWrite` and of `Reset()`. -/
  | done
deriving DecidableEq, Repr

/-- The rows of the opcode map (rule R72), as names. -/
inductive Row where
  | readCtrl
  | readStatus
  | readDmaAddr
  | readDmaLen
  | readUnmapped
  | writeCtrlStart
  | writeCtrlReset
  | writeCtrlNocmd
  | writeStatus
  | writeDmaAddr
  | writeDmaLen
  | writeUnmapped
  | reset
deriving DecidableEq, Repr

/-- The instructions: one constructor per row of the opcode map (rule R72). The operands are the
fields of the transaction word that the row does not fix and that its meaning reads. A field that
rule R60 calls ignored is no operand. -/
inductive Instr where
  /-- `READ_CTRL` (rule R73). -/
  | readCtrl
  /-- `READ_STATUS` (rule R74). -/
  | readStatus
  /-- `READ_DMA_ADDR` (rule R75). -/
  | readDmaAddr
  /-- `READ_DMA_LEN` (rule R76). -/
  | readDmaLen
  /-- `READ_UNMAPPED` (rule R77): `offset` is one that rule R62 decodes to no register. -/
  | readUnmapped (offset : Word)
  /-- `WRITE_CTRL_START` (rule R79): bit 0 of `v` is set. -/
  | writeCtrlStart (v : Word)
  /-- `WRITE_CTRL_RESET` (rule R80): bits 1:0 of `v` are 10. -/
  | writeCtrlReset (v : Word)
  /-- `WRITE_CTRL_NOCMD` (rule R81): bits 1:0 of `v` are 00. -/
  | writeCtrlNocmd (v : Word)
  /-- `WRITE_STATUS` (rule R82). -/
  | writeStatus (v : Word)
  /-- `WRITE_DMA_ADDR` (rule R83). -/
  | writeDmaAddr (v : Word)
  /-- `WRITE_DMA_LEN` (rule R84). -/
  | writeDmaLen (v : Word)
  /-- `WRITE_UNMAPPED` (rule R85): `offset` is one that rule R62 decodes to no register. -/
  | writeUnmapped (offset v : Word)
  /-- `RESET` (rule R88): the reset operation, not the in-band RESET command. -/
  | reset
deriving DecidableEq, Repr

/-- Why a transaction word decodes to no transaction. -/
inductive DecodeError where
  /-- `op = 0b11` is reserved (rule R61). -/
  | reservedOp
deriving DecidableEq, Repr

/-- The kinds of diagnostic event (rule R93). -/
inductive DiagKind where
  | unmappedRead
  | unmappedWrite
  | ctrlWrite
  | statusWrite
  | dmaAddrWrite
  | dmaLenWrite
deriving DecidableEq, Repr

/-- One diagnostic event `Diag(kind, offset, value)` (rule R93); an unmapped read records no value. -/
structure Diag where
  kind : DiagKind
  offset : Word
  value : Option Word
deriving DecidableEq, Repr

end Sys2Proof
end

