-- ==== Sys2Proof/Decode.lean ====
section
/-! DEFINITION. The decoder (rules R59 to R66 of 30_encoding.md), the encoder, and the opcode map
itself (rule R72). Offsets, op codes and command bits stand here once, as named constants
(91_not_in_source.md N9). -/

namespace Sys2Proof

/-! ## The constants of the encoding -/

/-- The offset of each register (rules R16, R39). -/
def Reg.offset : Reg → Word
  | .ctrl => 0x00000000#32
  | .status => 0x00000004#32
  | .dmaAddr => 0x00000008#32
  | .dmaLen => 0x0000000C#32

/-- `op` of a `BusRead` (rule R59). -/
def opBusRead : BitVec 2 := 0b00#2

/-- `op` of a `BusWrite` (rule R59). -/
def opBusWrite : BitVec 2 := 0b01#2

/-- `op` of a `Reset()` (rule R59). -/
def opReset : BitVec 2 := 0b10#2

/-- The bit of a CTRL write value that carries START (rule R18). -/
def startBit : Nat := 0

/-- The bit of a CTRL write value that carries RESET (rule R18). -/
def resetBit : Nat := 1

/-! ## The fields of a transaction word (rule R59) -/

/-- `T[65:64]`. -/
def opField (T : TxnWord) : BitVec 2 := T.extractLsb' 64 2

/-- `T[63:32]`. -/
def offsetField (T : TxnWord) : Word := T.extractLsb' 32 32

/-- `T[31:0]`. -/
def wdataField (T : TxnWord) : Word := T.extractLsb' 0 32

/-- The transaction word with the given three fields. -/
def packWord (op : BitVec 2) (offset wdata : Word) : TxnWord := op ++ offset ++ wdata

/-! ## The decode functions -/

/-- The offset decode of rule R62. All 32 bits are compared (rule R40). -/
def decodeOffset (offset : Word) : Target :=
  if offset = Reg.ctrl.offset then .mapped .ctrl
  else if offset = Reg.status.offset then .mapped .status
  else if offset = Reg.dmaAddr.offset then .mapped .dmaAddr
  else if offset = Reg.dmaLen.offset then .mapped .dmaLen
  else .unmapped

/-- The command decode `cmd(v)` of rule R63: START takes priority over RESET. -/
def commandOf (v : Word) : Command :=
  if v.getLsbD startBit then .start
  else if v.getLsbD resetBit then .reset
  else .unrecognized

/-- Step 1 of the decode order (rule R66): which transaction the word selects. The fields that rule
R60 calls ignored are not read. -/
def decodeTxn (T : TxnWord) : Except DecodeError Txn :=
  if opField T = opBusRead then .ok (.busRead (offsetField T))
  else if opField T = opBusWrite then .ok (.busWrite (offsetField T) (wdataField T))
  else if opField T = opReset then .ok .reset
  else .error .reservedOp

/-- Step 2 of the decode order (rule R66) for a `BusRead`. -/
def classifyRead (offset : Word) : Instr :=
  match decodeOffset offset with
  | .mapped .ctrl => .readCtrl
  | .mapped .status => .readStatus
  | .mapped .dmaAddr => .readDmaAddr
  | .mapped .dmaLen => .readDmaLen
  | .unmapped => .readUnmapped offset

/-- Step 3 of the decode order (rule R66): a CTRL write by its command. -/
def classifyCtrlWrite (v : Word) : Instr :=
  match commandOf v with
  | .start => .writeCtrlStart v
  | .reset => .writeCtrlReset v
  | .unrecognized => .writeCtrlNocmd v

/-- Steps 2 and 3 of the decode order (rule R66) for a `BusWrite`. -/
def classifyWrite (offset v : Word) : Instr :=
  match decodeOffset offset with
  | .mapped .ctrl => classifyCtrlWrite v
  | .mapped .status => .writeStatus v
  | .mapped .dmaAddr => .writeDmaAddr v
  | .mapped .dmaLen => .writeDmaLen v
  | .unmapped => .writeUnmapped offset v

/-- The row of the opcode map a transaction belongs to, with its operands (rules R66, R72). -/
def classify : Txn → Instr
  | .busRead offset => classifyRead offset
  | .busWrite offset v => classifyWrite offset v
  | .reset => .reset

/-- The decoder: total on every transaction word, rejecting only the reserved `op` (rules R61, R67). -/
def decode (T : TxnWord) : Except DecodeError Instr :=
  match decodeTxn T with
  | .ok t => .ok (classify t)
  | .error e => .error e

/-! ## The encoder -/

/-- The canonical transaction word of a transaction: zeros in every ignored field (rule R60). -/
def encodeTxn : Txn → TxnWord
  | .busRead offset => packWord opBusRead offset 0#32
  | .busWrite offset v => packWord opBusWrite offset v
  | .reset => packWord opReset 0#32 0#32

/-- The canonical transaction word of an instruction, from the rows of rule R72. -/
def encode : Instr → TxnWord
  | .readCtrl => packWord opBusRead Reg.ctrl.offset 0#32
  | .readStatus => packWord opBusRead Reg.status.offset 0#32
  | .readDmaAddr => packWord opBusRead Reg.dmaAddr.offset 0#32
  | .readDmaLen => packWord opBusRead Reg.dmaLen.offset 0#32
  | .readUnmapped offset => packWord opBusRead offset 0#32
  | .writeCtrlStart v => packWord opBusWrite Reg.ctrl.offset v
  | .writeCtrlReset v => packWord opBusWrite Reg.ctrl.offset v
  | .writeCtrlNocmd v => packWord opBusWrite Reg.ctrl.offset v
  | .writeStatus v => packWord opBusWrite Reg.status.offset v
  | .writeDmaAddr v => packWord opBusWrite Reg.dmaAddr.offset v
  | .writeDmaLen v => packWord opBusWrite Reg.dmaLen.offset v
  | .writeUnmapped offset v => packWord opBusWrite offset v
  | .reset => packWord opReset 0#32 0#32

/-- The canonical form of a transaction word (rule R60): a word with the fields its kind ignores set to
zero. A reserved word has no form of its own and stays as it is. -/
def canonical (T : TxnWord) : TxnWord :=
  match decodeTxn T with
  | .ok t => encodeTxn t
  | .error _ => T

/-! ## The opcode map in match and mask form (rule R72 and opcode_table.json) -/

/-- The row an instruction belongs to. -/
def Instr.row : Instr → Row
  | .readCtrl => .readCtrl
  | .readStatus => .readStatus
  | .readDmaAddr => .readDmaAddr
  | .readDmaLen => .readDmaLen
  | .readUnmapped _ => .readUnmapped
  | .writeCtrlStart _ => .writeCtrlStart
  | .writeCtrlReset _ => .writeCtrlReset
  | .writeCtrlNocmd _ => .writeCtrlNocmd
  | .writeStatus _ => .writeStatus
  | .writeDmaAddr _ => .writeDmaAddr
  | .writeDmaLen _ => .writeDmaLen
  | .writeUnmapped _ _ => .writeUnmapped
  | .reset => .reset

/-- The `match` number of a row (opcode_table.json). -/
def Row.pattern : Row → TxnWord
  | .readCtrl => 0x00000000000000000#66
  | .readStatus => 0x00000000400000000#66
  | .readDmaAddr => 0x00000000800000000#66
  | .readDmaLen => 0x00000000C00000000#66
  | .readUnmapped => 0x00000000000000000#66
  | .writeCtrlStart => 0x10000000000000001#66
  | .writeCtrlReset => 0x10000000000000002#66
  | .writeCtrlNocmd => 0x10000000000000000#66
  | .writeStatus => 0x10000000400000000#66
  | .writeDmaAddr => 0x10000000800000000#66
  | .writeDmaLen => 0x10000000C00000000#66
  | .writeUnmapped => 0x10000000000000000#66
  | .reset => 0x20000000000000000#66

/-- The `mask` number of a row (opcode_table.json): the bits its `match` number fixes. -/
def Row.mask : Row → TxnWord
  | .readCtrl => 0x3FFFFFFFF00000000#66
  | .readStatus => 0x3FFFFFFFF00000000#66
  | .readDmaAddr => 0x3FFFFFFFF00000000#66
  | .readDmaLen => 0x3FFFFFFFF00000000#66
  | .readUnmapped => 0x30000000000000000#66
  | .writeCtrlStart => 0x3FFFFFFFF00000001#66
  | .writeCtrlReset => 0x3FFFFFFFF00000003#66
  | .writeCtrlNocmd => 0x3FFFFFFFF00000003#66
  | .writeStatus => 0x3FFFFFFFF00000000#66
  | .writeDmaAddr => 0x3FFFFFFFF00000000#66
  | .writeDmaLen => 0x3FFFFFFFF00000000#66
  | .writeUnmapped => 0x30000000000000000#66
  | .reset => 0x30000000000000000#66

/-- A word matches a row when it has the row's fixed bits. -/
def Row.matchesWord (r : Row) (T : TxnWord) : Bool := T &&& r.mask == r.pattern

/-- A default row, tried after every mapped row of its op (rule R66). -/
def Row.isDefault (r : Row) : Bool := r == .readUnmapped || r == .writeUnmapped

/-- The rows in the order of opcode_table.json, which is the order they are tried in (rule R66). -/
def opcodeMap : List Row :=
  [.readCtrl, .readStatus, .readDmaAddr, .readDmaLen, .readUnmapped, .writeCtrlStart, .writeCtrlReset,
    .writeCtrlNocmd, .writeStatus, .writeDmaAddr, .writeDmaLen, .writeUnmapped, .reset]

/-- The first row that a word matches. -/
def firstRow (T : TxnWord) : Option Row := opcodeMap.find? (·.matchesWord T)

/-! ## Words as the opcode table numbers their bits -/

/-- The transaction word with the given number as its bits. A number with a bit above bit 65 is no
transaction word (rule R59; log entry 3). -/
def wordOfTable (w : Nat) : Option TxnWord :=
  if w < 2 ^ 66 then some (BitVec.ofNat 66 w) else none

/-- The instruction the decoder reads from a word given as the opcode table numbers its bits. A
transaction word has one fixed width, so its length says nothing more (rule R68). -/
def decodeTableWord (_nbits w : Nat) : Option Instr :=
  match wordOfTable w with
  | none => none
  | some T =>
    match decode T with
    | .ok i => some i
    | .error _ => none

end Sys2Proof
end

