-- ==== Sys2Proof/Machine/State.lean ====
section
/-! DEFINITION. The state of one block, the stream of requests that drives it, what it has answered, and
the reasons a step can stop. -/

namespace Sys2Proof.Machine

/-- The reasons the machine faults: none. Rule R90: the block "raises no exception, trap or fault, and it
has no cause code"; rule R101: there is no trap mechanism. So no meaning raises a fault (log entry 9). -/
inductive Fault where
deriving DecidableEq, Repr

/-- The reasons a request is refused. Each one stops the run at the block's boundary, before any state
element changes. -/
inductive Refusal where
  /-- Raised by an arm of `exec` for an instruction that has no meaning yet. Safe. No arm raises it. -/
  | notModelled (mnemonic : String)
  /-- Raised at the boundary for a transaction word with the reserved `op = 0b11` (rule R61,
  `refuse(ReservedOp)`). Safe: nothing can be proved of a run past it (log entry 6). -/
  | reservedOp
  /-- Raised at the boundary for a bus access that is not one whole word (rule R42, 92_eei_decisions.md D4,
  `refuse(Width)`). Safe: nothing can be proved of a run past it (log entry 7). -/
  | accessWidth
deriving DecidableEq, Repr

/-- The state of one block: exactly the five elements of rule R15. -/
structure Block where
  /-- CTRL (rules R17, R18): the last value written to offset 0x00. -/
  ctrl : Word
  /-- STATUS (rule R19): DONE in bit 0, BUSY in bit 1, bits 31:2 reserved. -/
  status : Word
  /-- DMA_ADDR (rule R24): the staged transfer address. -/
  dmaAddr : Word
  /-- DMA_LEN (rule R25): the staged transfer length. -/
  dmaLen : Word
  /-- `operation_active` (rule R26): hidden, at no offset. -/
  operationActive : Bool
deriving DecidableEq, Repr

/-- One request the host presents at the block's boundary: the transaction word and, for a bus access,
how many bytes wide the access is. Only whole-word (4-byte) bus accesses are transactions of the block
(rule R42); a `Reset()` has no width, so `bytes` says nothing there. -/
structure Request where
  bytes : Nat
  word : TxnWord
deriving DecidableEq, Repr

/-- The machine: the block and its boundary. The block's five elements are all the state the spec gives
(rule R15). The other three fields are the model's own: the step of rule R9 takes a transaction and
answers a response and diagnostics, and they hold those as plain data (log entries 2, 4, 8). -/
structure State where
  /-- The five state elements of rule R15. -/
  block : Block
  /-- The requests the host has presented and the block has not yet taken, oldest first: the one totally
  ordered stream of rule R12. -/
  pending : List Request
  /-- The responses of the completed transactions, oldest first (rules R9, R58). -/
  responses : List Resp
  /-- The diagnostic output (rules R8, R93), oldest first. Not state and not functional (rule R95). -/
  diags : List Diag
deriving DecidableEq, Repr

/-- The reset values of the five elements (rules R36, R37). -/
def Block.reset : Block :=
  { ctrl := 0x00000000#32
    status := 0x00000000#32
    dmaAddr := 0x00000000#32
    dmaLen := 0x00000000#32
    operationActive := false }

/-- The machine right after construction or reset (rules R36, R37, R110): every element at its reset
value, no request presented, nothing answered and nothing logged (log entry 4). -/
def State.reset : State :=
  { block := Block.reset
    pending := []
    responses := []
    diags := [] }

end Sys2Proof.Machine
end

