-- ==== Sys2Proof/Machine/Ops.lean ====
section
/-! DEFINITION. The named operations over the block's registers and over its boundary: reading and
storing a register, completing a transaction, taking the next request. There is no operation over memory,
since the block has none (rule R55), and none that takes an exception or returns from one, since the block
raises none (rules R90, R101; log entries 9, 10). -/

namespace Sys2Proof.Machine

/-! ## The registers (rules R16, R29) -/

/-- The value of a register. -/
def Block.get (b : Block) : Reg → Word
  | .ctrl => b.ctrl
  | .status => b.status
  | .dmaAddr => b.dmaAddr
  | .dmaLen => b.dmaLen

/-- `r <- v` of rule R8: the block with one register replaced. -/
def Block.set (b : Block) (r : Reg) (v : Word) : Block :=
  match r with
  | .ctrl => { b with ctrl := v }
  | .status => { b with status := v }
  | .dmaAddr => { b with dmaAddr := v }
  | .dmaLen => { b with dmaLen := v }

/-- `operation_active <- a` of rule R8. -/
def Block.setActive (b : Block) (a : Bool) : Block := { b with operationActive := a }

/-- What `Reset()` writes into the five elements (rule R88): constants, whatever they held before. -/
def Block.zeroed (b : Block) : Block :=
  ((((b.set .ctrl 0x00000000#32).set .status 0x00000000#32).set .dmaAddr 0x00000000#32).set .dmaLen
    0x00000000#32).setActive false

/-! ## Completing a transaction (rules R9, R58) -/

/-- The machine with the block's elements replaced. -/
def State.withBlock (s : State) (b : Block) : State := { s with block := b }

/-- The machine with one more response. -/
def State.respond (s : State) (r : Resp) : State := { s with responses := s.responses ++ [r] }

/-- `emit Diag(kind, offset, value)` of rule R8: one more event in the diagnostic output. -/
def State.emit (s : State) (d : Diag) : State := { s with diags := s.diags ++ [d] }

/-- A read completes with its data and changes no state element (rule R46). -/
def State.completeRead (s : State) (rdata : Word) : State := s.respond (.readData rdata)

/-- A write completes with `Done` (rule R78): the block as the write leaves it, and the write's event. -/
def State.completeWrite (s : State) (b : Block) (d : Diag) : State :=
  ((s.withBlock b).emit d).respond .done

/-- `Reset()` completes with `Done` and no event (rules R88, R93). -/
def State.completeReset (s : State) : State := (s.withBlock s.block.zeroed).respond .done

/-! ## The boundary (rules R11, R12, R42, R61) -/

/-- A whole-word request that carries a transaction word. -/
def Request.whole (T : TxnWord) : Request := { bytes := 4, word := T }

/-- What the block's boundary makes of a request: the instruction it carries, or why it is refused. The
reserved `op` is refused first (rule R61); then a bus access that is not one whole word (rule R42). A
`Reset()` is no bus access and has no width (rule R58; log entry 7). -/
def acceptRequest (r : Request) : Except Refusal Instr :=
  match decodeTxn r.word with
  | .error .reservedOp => .error .reservedOp
  | .ok .reset => .ok (classify .reset)
  | .ok (.busRead offset) =>
    if r.bytes = 4 then .ok (classify (.busRead offset)) else .error .accessWidth
  | .ok (.busWrite offset v) =>
    if r.bytes = 4 then .ok (classify (.busWrite offset v)) else .error .accessWidth

/-- The machine with the given requests still to take. -/
def State.withPending (s : State) (rs : List Request) : State := { s with pending := rs }

/-- The host presents requests: they join the stream behind those already presented (rule R12). -/
def State.deliver (s : State) (rs : List Request) : State := s.withPending (s.pending ++ rs)

end Sys2Proof.Machine
end

