-- ==== Sys2Proof/Machine/Operands.lean ====
section
/-! DEFINITION. The operand forms: the data a read answers, by what its offset decodes to (rule R65 of
30_encoding.md). A write's data is taken whole, without extension, scaling or masking (rule R64), so it
has no form of its own. -/

namespace Sys2Proof.Machine

/-- The read data of an offset by its decode (rule R65): the whole register, unmodified, or 0x00000000
where no register is mapped (rules R40, R77). -/
def rdataOf (b : Block) : Target → Word
  | .mapped r => b.get r
  | .unmapped => 0x00000000#32

end Sys2Proof.Machine
end

