-- ==== Sys2Proof/Machine/Read.lean ====
section
/-! DEFINITION. The meanings of the five read instructions (rules R73 to R77 of 40_bus_read.md). -/

namespace Sys2Proof.Machine

/-- `READ_CTRL` (rule R73): `return ctrl`. -/
def execReadCtrl (s : State) : Host.Outcome State Fault Refusal :=
  .next (s.completeRead (rdataOf s.block (.mapped .ctrl)))

/-- `READ_STATUS` (rule R74): `return status`. -/
def execReadStatus (s : State) : Host.Outcome State Fault Refusal :=
  .next (s.completeRead (rdataOf s.block (.mapped .status)))

/-- `READ_DMA_ADDR` (rule R75): `return dma_addr`. -/
def execReadDmaAddr (s : State) : Host.Outcome State Fault Refusal :=
  .next (s.completeRead (rdataOf s.block (.mapped .dmaAddr)))

/-- `READ_DMA_LEN` (rule R76): `return dma_len`. -/
def execReadDmaLen (s : State) : Host.Outcome State Fault Refusal :=
  .next (s.completeRead (rdataOf s.block (.mapped .dmaLen)))

/-- `READ_UNMAPPED` (rule R77): emits the event of rule R93, then `return 0x00000000`. -/
def execReadUnmapped (offset : Word) (s : State) : Host.Outcome State Fault Refusal :=
  .next ((s.emit ⟨.unmappedRead, offset, none⟩).completeRead (rdataOf s.block .unmapped))

end Sys2Proof.Machine
end

