-- ==== Sys2Proof/Machine/ResetOp.lean ====
section
/-! DEFINITION. The meaning of the reset operation (rule R88 of 42_reset_op.md). It is not the in-band RESET
command, which is a CTRL write (rule R80). -/

namespace Sys2Proof.Machine

/-- `RESET` (rule R88): zeroes all five elements, whatever they held. The requests still pending, the
responses and the diagnostic output are no state of the block and stay (log entry 4). -/
def execReset (s : State) : Host.Outcome State Fault Refusal :=
  .next s.completeReset

end Sys2Proof.Machine
end

