-- ==== Sys2Proof/Machine/Flags.lean ====
section
/-! DEFINITION. The bits of STATUS, what a command does to them, and the control/status state machine
(rules R19, R30, R34, R35 of 10_state.md; rules R79, R80 of 41_bus_write.md). -/

namespace Sys2Proof.Machine

/-- The mask of DONE, bit 0 of STATUS (rule R19). -/
def doneMask : Word := 0x00000001#32

/-- The mask of BUSY, bit 1 of STATUS (rule R19). -/
def busyMask : Word := 0x00000002#32

/-- DONE of a STATUS value (rule R19). -/
def statusDone (status : Word) : Bool := status &&& doneMask != 0#32

/-- BUSY of a STATUS value (rule R19). -/
def statusBusy (status : Word) : Bool := status &&& busyMask != 0#32

/-- STATUS after a START (rule R79): BUSY is set, then DONE is set and BUSY cleared, in one step. The
value between the two is no state (rule R10). -/
def startStatus (status : Word) : Word :=
  let busySet := status ||| busyMask
  (busySet ||| doneMask) &&& ~~~busyMask

/-- STATUS after a RESET command (rule R80). -/
def clearedStatus : Word := 0x00000000#32

/-- The states of the control/status state machine (rule R34). -/
inductive Fsm where
  | idle
  | operationComplete
deriving DecidableEq, Repr

/-- The state of the state machine as a function of STATUS alone (rule R34). The rule names a state for
the values below only, so any other value has none (log entry 11). -/
def fsmOf (status : Word) : Option Fsm :=
  if status = 0x00000000#32 then some .idle
  else if statusDone status then some .operationComplete
  else none

/-- The transition table of rule R35. -/
def Fsm.next (f : Fsm) : Instr → Fsm
  | .writeCtrlStart _ => .operationComplete
  | .writeCtrlReset _ => .idle
  | .writeCtrlNocmd _ => f
  | .writeStatus _ => f
  | .writeDmaAddr _ => f
  | .writeDmaLen _ => f
  | .writeUnmapped _ _ => f
  | .readCtrl => f
  | .readStatus => f
  | .readDmaAddr => f
  | .readDmaLen => f
  | .readUnmapped _ => f
  | .reset => .idle

end Sys2Proof.Machine
end

