-- ==== Sys2Proof/Machine/Write.lean ====
section
/-! DEFINITION. The meanings of the seven write instructions (rules R79 to R85 of 41_bus_write.md). Every
write completes with `Done` (rule R78). A CTRL write stores its value and then acts on the command in that
value, both in the one step (rule R87). -/

namespace Sys2Proof.Machine

/-- `WRITE_CTRL_START` (rule R79). `operation_active` stays set after the operation has completed
(92_eei_decisions.md D7; log entry 5). -/
def execWriteCtrlStart (v : Word) (s : State) : Host.Outcome State Fault Refusal :=
  .next (s.completeWrite
    (((s.block.set .ctrl v).set .status (startStatus s.block.status)).setActive true)
    ⟨.ctrlWrite, Reg.ctrl.offset, some v⟩)

/-- `WRITE_CTRL_RESET` (rule R80): clears STATUS and the flag, and keeps `ctrl` at `v` and the DMA registers
at what they hold. -/
def execWriteCtrlReset (v : Word) (s : State) : Host.Outcome State Fault Refusal :=
  .next (s.completeWrite
    (((s.block.set .ctrl v).set .status clearedStatus).setActive false)
    ⟨.ctrlWrite, Reg.ctrl.offset, some v⟩)

/-- `WRITE_CTRL_NOCMD` (rule R81): stores the value and does nothing else. -/
def execWriteCtrlNocmd (v : Word) (s : State) : Host.Outcome State Fault Refusal :=
  .next (s.completeWrite (s.block.set .ctrl v) ⟨.ctrlWrite, Reg.ctrl.offset, some v⟩)

/-- `WRITE_STATUS` (rule R82): accepted, and no state element is written. -/
def execWriteStatus (v : Word) (s : State) : Host.Outcome State Fault Refusal :=
  .next (s.completeWrite s.block ⟨.statusWrite, Reg.status.offset, some v⟩)

/-- `WRITE_DMA_ADDR` (rule R83): stores the value as given, without validation. -/
def execWriteDmaAddr (v : Word) (s : State) : Host.Outcome State Fault Refusal :=
  .next (s.completeWrite (s.block.set .dmaAddr v) ⟨.dmaAddrWrite, Reg.dmaAddr.offset, some v⟩)

/-- `WRITE_DMA_LEN` (rule R84): stores the value as given, without validation. -/
def execWriteDmaLen (v : Word) (s : State) : Host.Outcome State Fault Refusal :=
  .next (s.completeWrite (s.block.set .dmaLen v) ⟨.dmaLenWrite, Reg.dmaLen.offset, some v⟩)

/-- `WRITE_UNMAPPED` (rule R85): accepted, and no state element is written. -/
def execWriteUnmapped (offset v : Word) (s : State) : Host.Outcome State Fault Refusal :=
  .next (s.completeWrite s.block ⟨.unmappedWrite, offset, some v⟩)

end Sys2Proof.Machine
end

