-- ==== Sys2Proof/Machine/Dispatch.lean ====
section
/-! DEFINITION. One arm per row of the opcode map (rule R72 of 30_encoding.md). -/

namespace Sys2Proof.Machine

def exec (i : Instr) (s : State) : Host.Outcome State Fault Refusal :=
  match i with
  | .readCtrl => Sys2Proof.Machine.execReadCtrl s
  | .readStatus => Sys2Proof.Machine.execReadStatus s
  | .readDmaAddr => Sys2Proof.Machine.execReadDmaAddr s
  | .readDmaLen => Sys2Proof.Machine.execReadDmaLen s
  | .readUnmapped offset => Sys2Proof.Machine.execReadUnmapped offset s
  | .writeCtrlStart v => Sys2Proof.Machine.execWriteCtrlStart v s
  | .writeCtrlReset v => Sys2Proof.Machine.execWriteCtrlReset v s
  | .writeCtrlNocmd v => Sys2Proof.Machine.execWriteCtrlNocmd v s
  | .writeStatus v => Sys2Proof.Machine.execWriteStatus v s
  | .writeDmaAddr v => Sys2Proof.Machine.execWriteDmaAddr v s
  | .writeDmaLen v => Sys2Proof.Machine.execWriteDmaLen v s
  | .writeUnmapped offset v => Sys2Proof.Machine.execWriteUnmapped offset v s
  | .reset => Sys2Proof.Machine.execReset s

end Sys2Proof.Machine
end

