-- ==== Sys2Proof/Machine/Step.lean ====
section
/-! DEFINITION. One step of the machine (rule R9 of 00_scope.md): the block takes the oldest pending request
and runs it as one atomic transaction. -/

namespace Sys2Proof.Machine

/-- One step. With no request pending nothing happens, since the block takes no step of its own (rules R11,
R33; log entry 2). Otherwise the oldest request leaves the stream and runs to completion, or is refused at
the boundary. -/
def step (s : State) : Host.Outcome State Fault Refusal :=
  match s.pending with
  | [] => .next s
  | r :: rest =>
    match acceptRequest r with
    | .ok i => exec i (s.withPending rest)
    | .error e => .refused e

/-- The host presents the transaction word of the given number, as a whole-word request ahead of every other
pending request, so that the next step runs it. A number that is no transaction word (log entry 3) is not
presented. -/
def State.withFetchWord (s : State) (_nbits w : Nat) : State :=
  match wordOfTable w with
  | some T => s.withPending (Request.whole T :: s.pending)
  | none => s

end Sys2Proof.Machine
end

