-- ==== Sys2Proof/Config.lean ====
section
/-! DEFINITION. The parameters the spec leaves OPEN (rule R5 of 00_scope.md, 92_eei_decisions.md D3,
D5, D8). The platform's parameters are arguments of the functions that use them, so that a claim
quantifies over them; the text of a diagnostic line is an uninterpreted constant. -/

namespace Sys2Proof

/-- The values of `BUS_BYTE_ORDER` (rule R43, 92_eei_decisions.md D3). -/
inductive ByteOrder where
  | little
  | big
deriving DecidableEq, Repr

/-- The platform's parameters: where the bus puts the block (`PERIPH_BASE`, `PERIPH_SPAN`, rule R41,
92_eei_decisions.md D5) and the byte order of the bus (rule R43, default little-endian). The base is a
natural number because D5 leaves the address type to the platform. -/
structure Platform where
  periphBase : Nat
  periphSpan : Nat
  busByteOrder : ByteOrder := .little
deriving DecidableEq, Repr

/-- `DIAG_FORMAT` (rule R94, 92_eei_decisions.md D8): the text of a diagnostic line is OPEN, so it is a
free value here (log entry 8). -/
opaque Config.diagFormat : Diag → String

end Sys2Proof
end

