-- ==== Sys2Proof/WellFormed.lean ====
section
/-! DEFINITION. Which terms of `Instr` are instructions: the operand conditions of the rows of the
opcode map (rule R72 of 30_encoding.md). -/

namespace Sys2Proof

/-- The operands of an instruction meet the condition of its row (rule R72): an unmapped row has an
offset that decodes to no register, and a CTRL write row has a value that carries its command. -/
def Instr.wf : Instr → Bool
  | .readUnmapped offset => decodeOffset offset == .unmapped
  | .writeCtrlStart v => commandOf v == .start
  | .writeCtrlReset v => commandOf v == .reset
  | .writeCtrlNocmd v => commandOf v == .unrecognized
  | .writeUnmapped offset _ => decodeOffset offset == .unmapped
  | .readCtrl => true
  | .readStatus => true
  | .readDmaAddr => true
  | .readDmaLen => true
  | .writeStatus _ => true
  | .writeDmaAddr _ => true
  | .writeDmaLen _ => true
  | .reset => true

/-- The platform's parameters are ones 92_eei_decisions.md D5 allows: the range holds the four registers.
Its size is at most what a 32-bit offset can tell apart (rule R5; log entry 12). -/
def Platform.wf (p : Platform) : Bool := 0x10 ≤ p.periphSpan && p.periphSpan ≤ 2 ^ 32

end Sys2Proof
end

