-- ==== Sys2Proof/Machine/Bus.lean ====
section
/-! DEFINITION. The block on a platform's byte-addressed bus (rules R41 to R43 of 20_memory.md,
92_eei_decisions.md D3 to D5). The bus itself is out of scope (rule R4). Here stand only the translation of a
global address into an offset, the whole-word rule, and which byte lane carries which bits. -/

namespace Sys2Proof.Machine

/-! ## The bytes of a word on the bus (rule R43) -/

/-- The byte of a word that lane `k` carries: word bits `[8k+7:8k]` in little-endian order. In big-endian order
lane `k` carries what lane `3 - k` carries in little-endian order (DEDUCED: the rule writes out the
little-endian lanes only; log entry 12). -/
def byteLane (o : ByteOrder) (w : Word) (k : Fin 4) : Byte :=
  match o with
  | .little => w.extractLsb' (8 * k.val) 8
  | .big => w.extractLsb' (8 * (3 - k.val)) 8

/-- The word that four byte lanes carry, lane 0 at the lowest address. -/
def wordOfLanes (o : ByteOrder) (b0 b1 b2 b3 : Byte) : Word :=
  match o with
  | .little => b3 ++ b2 ++ b1 ++ b0
  | .big => b0 ++ b1 ++ b2 ++ b3

/-- The global byte address of lane `k` of the word at an offset: `PERIPH_BASE + offset + k`. -/
def laneAddr (p : Platform) (offset : Word) (k : Fin 4) : Nat := p.periphBase + offset.toNat + k.val

/-- The byte the platform's bus carries at a global byte address while it carries a word at an offset: the lane
whose address it is, in the platform's byte order, and none at an address that is none of the four. -/
def busByte (p : Platform) (offset w : Word) (addr : Nat) : Option Byte :=
  [0, 1, 2, 3].findSome? fun k =>
    if addr = laneAddr p offset k then some (byteLane p.busByteOrder w k) else none

/-- The byte a response puts at a global byte address, where the access was of the word at an offset (rules R43,
R58): read data comes back byte by byte, and a completion has no data. -/
def respByte (p : Platform) (offset : Word) (r : Resp) (addr : Nat) : Option Byte :=
  match r with
  | .readData w => busByte p offset w addr
  | .done => none

/-! ## Accesses -/

/-- The four bytes of a whole-word access, as a byte-addressed bus carries them: `b0` at the lowest address. -/
structure Lanes where
  b0 : Byte
  b1 : Byte
  b2 : Byte
  b3 : Byte
deriving DecidableEq, Repr

/-- The byte of lane `k`. -/
def Lanes.get (d : Lanes) (k : Fin 4) : Byte :=
  match k with
  | 0 => d.b0
  | 1 => d.b1
  | 2 => d.b2
  | 3 => d.b3

/-- The word the platform's bus carries in four bytes, in the platform's byte order (rule R43). -/
def busWord (p : Platform) (d : Lanes) : Word := wordOfLanes p.busByteOrder d.b0 d.b1 d.b2 d.b3

/-- One access a bus master makes, as the bus routes it: a read, or a write with the bytes it carries, at a global
address, some bytes wide. Of an access that is not four bytes wide the data says nothing, since the access is
refused (rule R42). -/
structure BusAccess where
  write : Bool
  addr : Nat
  bytes : Nat
  data : Lanes
deriving DecidableEq, Repr

/-- The peripheral-local offset of a global bus address (rule R41), where the address lies in the block's
range. -/
def offsetOfAddr (p : Platform) (addr : Nat) : Option Word :=
  if p.periphBase ≤ addr ∧ addr < p.periphBase + p.periphSpan then
    some (BitVec.ofNat 32 (addr - p.periphBase))
  else none

/-- The transaction of an access at an offset (rules R57, R58). The word a write carries is put together from its
bytes in the platform's byte order (rule R43). -/
def BusAccess.txn (p : Platform) (a : BusAccess) (offset : Word) : Txn :=
  if a.write then .busWrite offset (busWord p a.data) else .busRead offset

/-- The request the block sees for an access (rule R41): none where the bus routes it elsewhere. An access
that is not one whole word keeps its width and is refused at the boundary (rule R42). -/
def routeAccess (p : Platform) (a : BusAccess) : Option Request :=
  (offsetOfAddr p a.addr).map fun offset => { bytes := a.bytes, word := encodeTxn (a.txn p offset) }

end Sys2Proof.Machine
end

