-- ==== Sys2Proof/Machine/Script.lean ====
section
/-! DEFINITION. The spec's own notations: a transaction word in hex (rule R59), the script line of one
transaction (rule R69, 92_eei_decisions.md D9), and the text of a diagnostic line (rule R94). Text is a list
of characters. None of it has a meaning of its own: a script line is exactly one transaction (rule R70). -/

namespace Sys2Proof.Machine

/-- The hex digit of a 4-bit number, in the capitals the spec writes. -/
def hexDigit (n : BitVec 4) : Char :=
  ['0', '1', '2', '3', '4', '5', '6', '7', '8', '9', 'A', 'B', 'C', 'D', 'E', 'F'].getD n.toNat '0'

/-- The value of a hex digit in either case (log entry 13). -/
def hexValue (c : Char) : Option Nat :=
  if '0' ≤ c ∧ c ≤ '9' then some (c.toNat - 48)
  else if 'A' ≤ c ∧ c ≤ 'F' then some (c.toNat - 55)
  else if 'a' ≤ c ∧ c ≤ 'f' then some (c.toNat - 87)
  else none

/-- The eight hex digits of a word, most significant first (rule R6). -/
def hexWord (w : Word) : List Char :=
  [7, 6, 5, 4, 3, 2, 1, 0].map fun k => hexDigit (w.extractLsb' (4 * k) 4)

/-- A word as the spec writes a constant: `0x` and eight digits (rule R6). -/
def writeWord (w : Word) : List Char := '0' :: 'x' :: hexWord w

/-- A transaction word as `0x<op>_<offset>_<wdata>` (rule R59). -/
def writeTxnWord (T : TxnWord) : List Char :=
  '0' :: 'x' :: hexDigit ((opField T).setWidth 4) :: '_' :: hexWord (offsetField T) ++
    '_' :: hexWord (wdataField T)

/-- The script line of a transaction (rule R69), its numbers in full. -/
def writeScript : Txn → List Char
  | .busRead offset => 'R' :: 'D' :: ' ' :: writeWord offset
  | .busWrite offset v => 'W' :: 'R' :: ' ' :: writeWord offset ++ ',' :: ' ' :: writeWord v
  | .reset => ['R', 'S', 'T']

/-- The number of a list of hex digits, after those already read. -/
def readDigits (n : Nat) : List Char → Option Nat
  | [] => some n
  | c :: cs =>
    match hexValue c with
    | some d => readDigits (16 * n + d) cs
    | none => none

/-- A 32-bit number in hex, `0x` and at least one digit (rule R69). -/
def readWord : List Char → Option Word
  | '0' :: 'x' :: d :: ds =>
    match readDigits 0 (d :: ds) with
    | some n => if n < 2 ^ 32 then some (BitVec.ofNat 32 n) else none
    | none => none
  | _ => none

/-- An offset: a number, or a register name in place of its offset (rule R69). -/
def readOffset (cs : List Char) : Option Word :=
  if cs = ['C', 'T', 'R', 'L'] then some Reg.ctrl.offset
  else if cs = ['S', 'T', 'A', 'T', 'U', 'S'] then some Reg.status.offset
  else if cs = ['D', 'M', 'A', '_', 'A', 'D', 'D', 'R'] then some Reg.dmaAddr.offset
  else if cs = ['D', 'M', 'A', '_', 'L', 'E', 'N'] then some Reg.dmaLen.offset
  else readWord cs

/-- The token read so far, where there is one, before the tokens after it. -/
def endToken (current : List Char) (rest : List (List Char)) : List (List Char) :=
  if current = [] then rest else current.reverse :: rest

/-- The tokens of a line: words between blanks, and each comma. A comment runs from `;` to the end of the
line (rule R69). `current` is the token read so far, reversed. -/
def tokens (current : List Char) : List Char → List (List Char)
  | [] => endToken current []
  | c :: cs =>
    if c = ';' then endToken current []
    else if c = ' ' ∨ c = '\t' then endToken current (tokens [] cs)
    else if c = ',' then endToken current ([','] :: tokens [] cs)
    else tokens (c :: current) cs

/-- The transaction of a script line (rule R69). A line that holds no transaction, or is malformed, has
none (log entry 13). -/
def readScript (line : List Char) : Option Txn :=
  match tokens [] line with
  | [k] => if k = ['R', 'S', 'T'] then some .reset else none
  | [k, o] => if k = ['R', 'D'] then (readOffset o).map .busRead else none
  | [k, o, comma, v] =>
    if k = ['W', 'R'] ∧ comma = [','] then
      match readOffset o, readWord v with
      | some offset, some value => some (.busWrite offset value)
      | _, _ => none
    else none
  | _ => none

/-- The lines a diagnostic output is written as, one per event, in the OPEN format `DIAG_FORMAT` (rules
R93, R94). -/
def diagLines (ds : List Diag) : List String := ds.map Config.diagFormat

end Sys2Proof.Machine
end

