-- ==== Sys2Proof/Machine/System.lean ====
section
/-! DEFINITION. Several blocks (rules R14, R105, R112) and several bus masters (rules R12, R50, R106). Each
block is its own `State`. A schedule says which master's request is delivered next, and it is a parameter of
the run (92_eei_decisions.md D13). -/

namespace Sys2Proof.Machine

/-- The blocks of a system, by position. They share no state (rule R105). -/
abbrev System := List State

/-- One step of the block at position `k`. Where there is no such block nothing happens. -/
def stepAt (k : Nat) (sys : System) : Host.Outcome System Fault Refusal :=
  match sys[k]? with
  | none => .next sys
  | some s =>
    match step s with
    | .next t => .next (sys.set k t)
    | .fault f => .fault f
    | .refused e => .refused e

/-- `Reset()` of the block at position `k` (92_eei_decisions.md D14). It stands in the block's serial order (rule R100)
between the transactions already run and every request still pending. So it overtakes the requests presented but not yet
taken, without a request of its own in the stream. The rule leaves that place open (DESIGN CHOICE, log entry 23). -/
def resetAt (sys : System) (k : Nat) : System := sys.modify k State.completeReset

/-- A system reset: one `Reset()` per position listed, in the order of the list (rule R112), each ahead of the requests
its block has pending (log entry 23). -/
def resetInOrder (order : List Nat) (sys : System) : System := order.foldl resetAt sys

/-- One total order of several masters' request streams (rule R50). Each entry of the schedule takes the
oldest request of the master it names. The answer is the requests in the order delivered, each with its
master, and what remains of every stream. A schedule that names a master with nothing left delivers nothing
at all. -/
def serialise {α : Type} : List Nat → List (List α) → Option (List (Nat × α) × List (List α))
  | [], streams => some ([], streams)
  | m :: schedule, streams =>
    match streams[m]? with
    | some (x :: xs) =>
      (serialise schedule (streams.set m xs)).map fun p => ((m, x) :: p.1, p.2)
    | _ => none

/-- What one master had delivered, in order. -/
def deliveredBy {α : Type} (m : Nat) (delivered : List (Nat × α)) : List α :=
  (delivered.filter fun p => p.1 == m).map Prod.snd

end Sys2Proof.Machine
end

