-- ==== Sys2Proof/Machine/Transaction.lean ====
section
/-! DEFINITION. The block as rule R9 of 00_scope.md states it: a total function from its five elements and a
transaction to the elements after it, a response and the diagnostic events. It is written from the three
operations of rule R2 (`read`, `write`, `reset`) and their order of events (rule R87), apart from the opcode
map, so that `step` can be compared with it. -/

namespace Sys2Proof.Machine

/-- `read(offset)`: the data and the event of an unmapped offset (rules R65, R77). -/
def Block.readOp (b : Block) (offset : Word) : Word × List Diag :=
  match decodeOffset offset with
  | .mapped r => (b.get r, [])
  | .unmapped => (0x00000000#32, [⟨.unmappedRead, offset, none⟩])

/-- What the command of a CTRL write does to a block whose `ctrl` is stored already (rules R79 to R81). -/
def Block.command (b : Block) : Command → Block
  | .start => (b.set .status (startStatus b.status)).setActive true
  | .reset => (b.set .status clearedStatus).setActive false
  | .unrecognized => b

/-- `write(offset, value)`: a CTRL write stores and then evaluates its command (rule R87). -/
def Block.writeOp (b : Block) (offset v : Word) : Block × List Diag :=
  match decodeOffset offset with
  | .mapped .ctrl => ((b.set .ctrl v).command (commandOf v), [⟨.ctrlWrite, offset, some v⟩])
  | .mapped .status => (b, [⟨.statusWrite, offset, some v⟩])
  | .mapped .dmaAddr => (b.set .dmaAddr v, [⟨.dmaAddrWrite, offset, some v⟩])
  | .mapped .dmaLen => (b.set .dmaLen v, [⟨.dmaLenWrite, offset, some v⟩])
  | .unmapped => (b, [⟨.unmappedWrite, offset, some v⟩])

/-- `step : State × Txn -> State × Resp × List Diag` of rule R9. -/
def transact (t : Txn) (b : Block) : Block × Resp × List Diag :=
  match t with
  | .busRead offset => (b, .readData (b.readOp offset).1, (b.readOp offset).2)
  | .busWrite offset v => ((b.writeOp offset v).1, .done, (b.writeOp offset v).2)
  | .reset => (Block.reset, .done, [])

end Sys2Proof.Machine
end

