-- ==== Sys2Proof/Safety.lean ====
section
/-! DEFINITION. What holds of the block between transactions, and the words claims about runs use: the
invariant of rules R23 and R27, which requests and instructions the rules speak of, and what an earlier
history of transactions left in a register. -/

namespace Sys2Proof.Machine

/-! ## The invariant -/

/-- The status invariant (rule R23): STATUS is 0x00000000 or 0x00000001. -/
abbrev Block.StatusLegal (b : Block) : Prop := b.status = 0x00000000#32 ∨ b.status = 0x00000001#32

/-- The flag invariant (rule R27): `operation_active == (status == 0x00000001)`. -/
abbrev Block.FlagAgrees (b : Block) : Prop := b.operationActive = (b.status == 0x00000001#32)

/-- The block's invariant in every state before and after a transaction (rules R23, R27). -/
abbrev Block.Inv (b : Block) : Prop := b.StatusLegal ∧ b.FlagAgrees

end Sys2Proof.Machine

namespace Sys2Proof

/-! ## Kinds of instruction -/

/-- The instructions of a `BusRead` (rules R73 to R77). -/
def Instr.isRead : Instr → Bool
  | .readCtrl => true
  | .readStatus => true
  | .readDmaAddr => true
  | .readDmaLen => true
  | .readUnmapped _ => true
  | .writeCtrlStart _ => false
  | .writeCtrlReset _ => false
  | .writeCtrlNocmd _ => false
  | .writeStatus _ => false
  | .writeDmaAddr _ => false
  | .writeDmaLen _ => false
  | .writeUnmapped _ _ => false
  | .reset => false

/-- The two diagnosable conditions (rule R91): an access to an unmapped offset. -/
def Instr.isUnmapped : Instr → Bool
  | .readUnmapped _ => true
  | .writeUnmapped _ _ => true
  | .readCtrl => false
  | .readStatus => false
  | .readDmaAddr => false
  | .readDmaLen => false
  | .writeCtrlStart _ => false
  | .writeCtrlReset _ => false
  | .writeCtrlNocmd _ => false
  | .writeStatus _ => false
  | .writeDmaAddr _ => false
  | .writeDmaLen _ => false
  | .reset => false

/-- The transactions that write STATUS (rule R20): a CTRL write whose command is `Start` or `Reset`, and
`Reset()`. -/
def Instr.writesStatus : Instr → Bool
  | .writeCtrlStart _ => true
  | .writeCtrlReset _ => true
  | .reset => true
  | .readCtrl => false
  | .readStatus => false
  | .readDmaAddr => false
  | .readDmaLen => false
  | .readUnmapped _ => false
  | .writeCtrlNocmd _ => false
  | .writeStatus _ => false
  | .writeDmaAddr _ => false
  | .writeDmaLen _ => false
  | .writeUnmapped _ _ => false

/-- The transactions that clear DONE (rule R21): a CTRL write whose command is `Reset`, and `Reset()`. -/
def Instr.clearsDone : Instr → Bool
  | .writeCtrlReset _ => true
  | .reset => true
  | .readCtrl => false
  | .readStatus => false
  | .readDmaAddr => false
  | .readDmaLen => false
  | .readUnmapped _ => false
  | .writeCtrlStart _ => false
  | .writeCtrlNocmd _ => false
  | .writeStatus _ => false
  | .writeDmaAddr _ => false
  | .writeDmaLen _ => false
  | .writeUnmapped _ _ => false

/-- The read instruction of a register (rules R73 to R76). -/
def Reg.readInstr : Reg → Instr
  | .ctrl => .readCtrl
  | .status => .readStatus
  | .dmaAddr => .readDmaAddr
  | .dmaLen => .readDmaLen

end Sys2Proof

namespace Sys2Proof.Machine

/-! ## Requests and runs -/

/-- A request the block's boundary accepts: it carries an instruction (rules R42, R61). -/
def Request.accepted (r : Request) : Bool :=
  match acceptRequest r with
  | .ok _ => true
  | .error _ => false

/-- The canonical whole-word request of an instruction. -/
def requestOf (i : Instr) : Request := Request.whole (encode i)

/-- `k` steps of the machine, stopping at the first refusal. -/
def runSteps : Nat → State → Host.Outcome State Fault Refusal
  | 0, s => .next s
  | k + 1, s =>
    match step s with
    | .next t => runSteps k t
    | .fault f => .fault f
    | .refused e => .refused e

/-- What the functional contract covers (rule R95): the five elements, the requests to come and the
responses. The diagnostic output is left out. -/
def State.functional (s : State) : Block × List Request × List Resp := (s.block, s.pending, s.responses)

/-- An instruction completes with the given block and response, takes no request and leaves the earlier
responses as they are. Nothing is said of the diagnostic output, on which no claim may rest (rule R95,
92_eei_decisions.md D8). -/
def CompletesWith (i : Instr) (s : State) (b : Block) (r : Resp) : Prop :=
  ∃ t, exec i s = .next t ∧ t.functional = (b, s.pending, s.responses ++ [r])

/-! ## What a history of transactions leaves in a register -/

/-- The value a transaction leaves in a register, where it writes the register (rule R49 with rules R79 to
R85 and R88). A START leaves 0x00000001 in STATUS from every reachable state (rule R79). -/
def storedBy (i : Instr) (r : Reg) : Option Word :=
  match i with
  | .writeCtrlStart v =>
    match r with
    | .ctrl => some v
    | .status => some 0x00000001#32
    | .dmaAddr => none
    | .dmaLen => none
  | .writeCtrlReset v =>
    match r with
    | .ctrl => some v
    | .status => some 0x00000000#32
    | .dmaAddr => none
    | .dmaLen => none
  | .writeCtrlNocmd v => if r = .ctrl then some v else none
  | .writeDmaAddr v => if r = .dmaAddr then some v else none
  | .writeDmaLen v => if r = .dmaLen then some v else none
  | .reset => some 0x00000000#32
  | .writeStatus _ => none
  | .writeUnmapped _ _ => none
  | .readCtrl => none
  | .readStatus => none
  | .readDmaAddr => none
  | .readDmaLen => none
  | .readUnmapped _ => none

/-- The value the most recent transaction that wrote a register left in it, or the value it held before the
history (rules R17, R49). -/
def lastStored (r : Reg) (before : Word) (history : List Instr) : Word :=
  (history.reverse.findSome? fun i => storedBy i r).getD before

end Sys2Proof.Machine
end

