-- ==== Sys2Proof/Certificates/Slice0/Obligations.lean ====
section
/-! DEFINITION. The statements for the provers. None of them claims anything of the diagnostic output beyond
that nothing depends on it (rule R95, 92_eei_decisions.md D8). None claims anything of `operation_active` that
rests on the choice of 92_eei_decisions.md D7, except through rule R27 and in the two that compare a step with the
transaction function, which say so (log entry 5). -/

open Sys2Proof Sys2Proof.Machine

/-! ## Encoding -/

/-- Rules R59, R60, R62, R63, R72: no bit of a well-formed instruction is lost in its canonical word. The layout of the
word is the spec's own choice (92_eei_decisions.md D2, log entry 1), here and wherever a transaction word stands. -/
def Obligations.DecodeOfEncodeIsIdentity : Prop :=
  ∀ i : Instr, i.wf = true → decode (encode i) = .ok i

/-- Rule R60: the instruction a word decodes to is well-formed, and its word is the canonical form of that
word, with zeros in the ignored fields (92_eei_decisions.md D2, log entry 1). -/
def Obligations.EncodeOfDecodeIsCanonical : Prop :=
  ∀ (T : TxnWord) (i : Instr), decode T = .ok i → i.wf = true ∧ encode i = canonical T

/-- Rule R60: the ignored fields of a `BusRead` and of a `Reset()` change nothing a step does
(92_eei_decisions.md D2, log entry 1). -/
def Obligations.IgnoredFieldsChangeNothing : Prop :=
  ∀ (s : State) (rest : List Request) (offset offset' v v' : Word),
    step (s.withPending (Request.whole (packWord opBusRead offset v) :: rest)) =
      step (s.withPending (Request.whole (packWord opBusRead offset v') :: rest)) ∧
    step (s.withPending (Request.whole (packWord opReset offset v) :: rest)) =
      step (s.withPending (Request.whole (packWord opReset offset' v') :: rest))

/-- Rules R66, R72: the decoder finds the first row of the opcode map, in match and mask form, that the word
matches, and refuses a word that matches none (92_eei_decisions.md D2, log entry 1). -/
def Obligations.DecoderAgreesWithOpcodeMap : Prop :=
  ∀ T : TxnWord,
    firstRow T = match decode T with
      | .ok i => some i.row
      | .error _ => none

/-- Rule R66: no word matches two rows of the opcode map other than the two default rows, so the order of
those rows does not matter (92_eei_decisions.md D2, log entry 1). -/
def Obligations.NoTwoPlainRowsMatchOneWord : Prop :=
  ∀ (r r' : Row) (T : TxnWord), r.isDefault = false → r'.isDefault = false →
    r.matchesWord T = true → r'.matchesWord T = true → r = r'

/-- Rule R62: the offset decode compares all 32 bits with the four offsets of the map. -/
def Obligations.OffsetDecodeComparesAllBits : Prop :=
  ∀ offset : Word,
    (decodeOffset offset = .mapped .ctrl ↔ offset = 0x00000000#32) ∧
    (decodeOffset offset = .mapped .status ↔ offset = 0x00000004#32) ∧
    (decodeOffset offset = .mapped .dmaAddr ↔ offset = 0x00000008#32) ∧
    (decodeOffset offset = .mapped .dmaLen ↔ offset = 0x0000000C#32) ∧
    (decodeOffset offset = .unmapped ↔
      offset ≠ 0x00000000#32 ∧ offset ≠ 0x00000004#32 ∧ offset ≠ 0x00000008#32 ∧ offset ≠ 0x0000000C#32)

/-- Rule R63: START takes priority, RESET counts only where START is clear, and bits 31:2 never change the
command. -/
def Obligations.CommandDecodeHasStartPriority : Prop :=
  ∀ v : Word,
    (commandOf v = .start ↔ v.getLsbD 0 = true) ∧
    (commandOf v = .reset ↔ v.getLsbD 0 = false ∧ v.getLsbD 1 = true) ∧
    (commandOf v = .unrecognized ↔ v.getLsbD 0 = false ∧ v.getLsbD 1 = false) ∧
    ∀ v' : Word, v' &&& 0x00000003#32 = v &&& 0x00000003#32 → commandOf v' = commandOf v

/-- Words written out from the layout of rule R59, one at least for each of the three kinds, decode to the
instructions 95_test_vectors.md names for them (section 2.3; 92_eei_decisions.md D2, log entry 1). -/
def Obligations.SampleWordsDecode : Prop :=
  decode 0x0000000000FFFFFFFF#66 = .ok .readCtrl ∧
  decode 0x00000000C00000000#66 = .ok .readDmaLen ∧
  decode 0x00000000D00000000#66 = .ok (.readUnmapped 0x0000000D#32) ∧
  decode 0x10000000000000003#66 = .ok (.writeCtrlStart 0x00000003#32) ∧
  decode 0x100000000FFFFFFFE#66 = .ok (.writeCtrlReset 0xFFFFFFFE#32) ∧
  decode 0x100000000FFFFFFFC#66 = .ok (.writeCtrlNocmd 0xFFFFFFFC#32) ∧
  decode 0x10000000400000001#66 = .ok (.writeStatus 0x00000001#32) ∧
  decode 0x2123456789ABCDEF0#66 = .ok .reset ∧
  decode 0x30000000000000000#66 = .error .reservedOp

/-! ## What each instruction does -/

/-- Rules R73 to R76: a read of a mapped register answers the register and changes no state element. -/
def Obligations.MappedReadsAnswerTheirRegister : Prop :=
  ∀ s : State,
    CompletesWith .readCtrl s s.block (.readData s.block.ctrl) ∧
    CompletesWith .readStatus s s.block (.readData s.block.status) ∧
    CompletesWith .readDmaAddr s s.block (.readData s.block.dmaAddr) ∧
    CompletesWith .readDmaLen s s.block (.readData s.block.dmaLen)

/-- Rule R77: a read of an unmapped offset answers 0x00000000 and changes no state element. -/
def Obligations.UnmappedReadAnswersZero : Prop :=
  ∀ (s : State) (offset : Word), decodeOffset offset = .unmapped →
    CompletesWith (.readUnmapped offset) s s.block (.readData 0x00000000#32)

/-- Rule R79: START stores its value, sets DONE and clears BUSY, keeps the reserved bits of STATUS and the DMA
registers, and completes. From a STATUS that rule R23 allows, STATUS is 0x00000001. What becomes of
`operation_active` is said through rule R27 only, as 92_eei_decisions.md D7 asks (log entry 5). -/
def Obligations.StartCommandSetsDone : Prop :=
  ∀ (s : State) (v : Word), commandOf v = .start →
    ∃ t, exec (.writeCtrlStart v) s = .next t ∧
      t.block.ctrl = v ∧
      statusDone t.block.status = true ∧ statusBusy t.block.status = false ∧
      t.block.status &&& 0xFFFFFFFC#32 = s.block.status &&& 0xFFFFFFFC#32 ∧
      t.block.dmaAddr = s.block.dmaAddr ∧ t.block.dmaLen = s.block.dmaLen ∧
      t.pending = s.pending ∧ t.responses = s.responses ++ [.done] ∧
      (s.block.StatusLegal → t.block.status = 0x00000001#32 ∧ t.block.FlagAgrees)

/-- Rule R80: the RESET command stores its value, clears STATUS and the flag, and keeps the DMA registers. -/
def Obligations.ResetCommandClearsStatusOnly : Prop :=
  ∀ (s : State) (v : Word), commandOf v = .reset →
    CompletesWith (.writeCtrlReset v) s
      { s.block with ctrl := v, status := 0x00000000#32, operationActive := false } .done

/-- Rule R81: a CTRL write without a command stores its value and changes nothing else. -/
def Obligations.PlainCtrlWriteStoresOnly : Prop :=
  ∀ (s : State) (v : Word), commandOf v = .unrecognized →
    CompletesWith (.writeCtrlNocmd v) s { s.block with ctrl := v } .done

/-- Rule R82: a STATUS write completes and changes no state element. -/
def Obligations.StatusWriteChangesNothing : Prop :=
  ∀ (s : State) (v : Word), CompletesWith (.writeStatus v) s s.block .done

/-- Rule R83: a DMA_ADDR write stores any value as given and changes nothing else. -/
def Obligations.DmaAddrWriteStoresVerbatim : Prop :=
  ∀ (s : State) (v : Word), CompletesWith (.writeDmaAddr v) s { s.block with dmaAddr := v } .done

/-- Rule R84: a DMA_LEN write stores any value as given and changes nothing else. -/
def Obligations.DmaLenWriteStoresVerbatim : Prop :=
  ∀ (s : State) (v : Word), CompletesWith (.writeDmaLen v) s { s.block with dmaLen := v } .done

/-- Rule R85: a write to an unmapped offset completes and changes no state element. -/
def Obligations.UnmappedWriteChangesNothing : Prop :=
  ∀ (s : State) (offset v : Word), decodeOffset offset = .unmapped →
    CompletesWith (.writeUnmapped offset v) s s.block .done

/-- Rule R36: after `Reset()`, from every state, every element has its reset value and the state machine is in
IDLE; and so it is in the state the machine starts in. That the pending requests and the earlier responses stay as
they are is the model's choice (log entry 4). -/
def Obligations.ResetLeavesResetValues : Prop :=
  (∀ s : State, ∃ t, exec .reset s = .next t ∧
    t.block.ctrl = 0x00000000#32 ∧ t.block.status = 0x00000000#32 ∧
    t.block.dmaAddr = 0x00000000#32 ∧ t.block.dmaLen = 0x00000000#32 ∧
    t.block.operationActive = false ∧ fsmOf t.block.status = some .idle ∧
    t.pending = s.pending ∧ t.responses = s.responses ++ [.done]) ∧
  State.reset.block = ⟨0x00000000#32, 0x00000000#32, 0x00000000#32, 0x00000000#32, false⟩

/-! ## Steps and the boundary -/

/-- Rules R9, R66: a step takes the oldest request from the stream and runs the instruction its word decodes
to. The stream of requests is the model's (log entry 2). -/
def Obligations.StepRunsDecodedInstruction : Prop :=
  ∀ (s : State) (T : TxnWord) (rest : List Request) (i : Instr),
    s.pending = Request.whole T :: rest → decode T = .ok i → i.wf = true →
    step s = exec i { s with pending := rest }

/-- Rules R11, R33: with no request pending a step changes nothing (the model's idle step, log entry 2). -/
def Obligations.StepWithoutRequestChangesNothing : Prop :=
  ∀ s : State, s.pending = [] → step s = .next s

/-- Rules R42, R61, with 92_eei_decisions.md D2 and D4 (log entries 6, 7): a step is refused exactly where the oldest request has
the reserved op, or is a bus access that is not one whole word, each by its own name. -/
def Obligations.RefusalsAreExactlyTheBoundarys : Prop :=
  ∀ (s : State) (r : Request) (rest : List Request) (e : Refusal), s.pending = r :: rest →
    (step s = .refused e ↔
      (e = .reservedOp ∧ opField r.word = 0b11#2) ∨
      (e = .accessWidth ∧ (opField r.word = 0b00#2 ∨ opField r.word = 0b01#2) ∧ r.bytes ≠ 4))

/-- Rule R58: each transaction completes with the response of its kind, read data for a `BusRead` and
completion only for a `BusWrite` and for `Reset()`. -/
def Obligations.EveryTransactionCompletesWithItsResponse : Prop :=
  ∀ (s : State) (T : TxnWord) (rest : List Request), s.pending = Request.whole T :: rest →
    opField T ≠ 0b11#2 →
    ∃ t, step s = .next t ∧ t.pending = rest ∧
      (opField T = 0b00#2 → ∃ rdata, t.responses = s.responses ++ [.readData rdata]) ∧
      (opField T ≠ 0b00#2 → t.responses = s.responses ++ [.done])

/-- Rules R90, R91: an unmapped access is not fatal and corrupts nothing. In every stream of transactions the unmapped
accesses among them complete too, and every other transaction answers, and the block ends, as in the stream without
them. -/
def Obligations.UnmappedAccessesAreNotFatal : Prop :=
  ∀ (s : State) (history : List Instr), (∀ i ∈ history, i.wf = true) →
    ∃ t u answers,
      runSteps history.length (s.withPending (history.map requestOf)) = .next t ∧
      runSteps (history.filter fun i => !i.isUnmapped).length
        (s.withPending ((history.filter fun i => !i.isUnmapped).map requestOf)) = .next u ∧
      t.responses = s.responses ++ answers ∧ answers.length = history.length ∧
      u.responses = s.responses ++
        ((history.zip answers).filter fun p => !p.1.isUnmapped).map Prod.snd ∧
      t.block = u.block

/-- Rule R65: the data of a `BusRead` is the whole register its offset decodes to, and 0x00000000 where it
decodes to none. No state element changes. -/
def Obligations.BusReadAnswersDecodedRegister : Prop :=
  ∀ (s : State) (rest : List Request) (offset v : Word),
    s.pending = Request.whole (packWord opBusRead offset v) :: rest →
    ∃ t, step s = .next t ∧ t.block = s.block ∧ t.pending = rest ∧
      t.responses = s.responses ++ [.readData (
        if offset = 0x00000000#32 then s.block.ctrl
        else if offset = 0x00000004#32 then s.block.status
        else if offset = 0x00000008#32 then s.block.dmaAddr
        else if offset = 0x0000000C#32 then s.block.dmaLen
        else 0x00000000#32)]

/-- Rule R78: every `BusWrite` completes with `Done`, changes CTRL, DMA_ADDR and DMA_LEN at their own offsets
only, and changes STATUS and the flag at the offset of CTRL only. -/
def Obligations.BusWriteTouchesItsRegisterOnly : Prop :=
  ∀ (s : State) (rest : List Request) (offset v : Word),
    s.pending = Request.whole (packWord opBusWrite offset v) :: rest →
    ∃ t, step s = .next t ∧ t.pending = rest ∧ t.responses = s.responses ++ [.done] ∧
      (decodeOffset offset ≠ .mapped .dmaAddr → t.block.dmaAddr = s.block.dmaAddr) ∧
      (decodeOffset offset ≠ .mapped .dmaLen → t.block.dmaLen = s.block.dmaLen) ∧
      (decodeOffset offset ≠ .mapped .ctrl → t.block.ctrl = s.block.ctrl ∧
        t.block.status = s.block.status ∧ t.block.operationActive = s.block.operationActive)

/-- Rules R40, R44: an access to any offset but the four, misaligned ones among them, reads 0x00000000 or writes
nothing, and changes no state element. -/
def Obligations.UnmappedOffsetsReachNoRegister : Prop :=
  ∀ (s : State) (rest : List Request) (offset v : Word),
    offset ≠ 0x00000000#32 → offset ≠ 0x00000004#32 → offset ≠ 0x00000008#32 → offset ≠ 0x0000000C#32 →
    (s.pending = Request.whole (packWord opBusRead offset v) :: rest →
      ∃ t, step s = .next t ∧ t.functional = (s.block, rest, s.responses ++ [.readData 0x00000000#32])) ∧
    (s.pending = Request.whole (packWord opBusWrite offset v) :: rest →
      ∃ t, step s = .next t ∧ t.functional = (s.block, rest, s.responses ++ [.done]))

/-- Rule R87: the command of a CTRL write comes from the value being written, so what CTRL held before makes no
difference. -/
def Obligations.PriorCtrlDoesNotMatter : Prop :=
  ∀ (s : State) (rest : List Request) (c v : Word),
    s.pending = Request.whole (packWord opBusWrite 0x00000000#32 v) :: rest →
    ∃ t u, step s = .next t ∧ step (s.withBlock { s.block with ctrl := c }) = .next u ∧
      t.block.ctrl = v ∧ u.functional = t.functional

/-! ## The invariant, STATUS and the state machine -/

/-- Rules R23, R27: every step keeps STATUS at 0x00000000 or 0x00000001 and `operation_active` equal to
`status == 0x00000001` (an inference of the spec, by its rules R20, R26, R79, R80 and R88; log entry 5). -/
def Obligations.StepKeepsStatusAndFlagInvariant : Prop :=
  ∀ s t : State, s.block.Inv → step s = .next t → t.block.Inv

/-- Rules R23, R27, R37: the state the machine starts in meets the invariant. -/
def Obligations.ResetStateMeetsStatusAndFlagInvariant : Prop :=
  State.reset.block.Inv

/-- Rule R22: BUSY is clear in every state a step leads to from one where it is clear, the reset state among
them, and every read of STATUS there answers a value with BUSY clear. -/
def Obligations.BusyIsNeverObserved : Prop :=
  statusBusy State.reset.block.status = false ∧
  ∀ s t : State, statusBusy s.block.status = false → step s = .next t →
    statusBusy t.block.status = false ∧
    ∀ (rest : List Request) (v : Word),
      s.pending = Request.whole (packWord opBusRead 0x00000004#32 v) :: rest →
      ∃ rdata, t.responses = s.responses ++ [.readData rdata] ∧ statusBusy rdata = false

/-- Rule R20: a step that changes STATUS ran a CTRL write whose command is `Start` or `Reset`, or `Reset()`. -/
def Obligations.OnlyCommandsAndResetChangeStatus : Prop :=
  ∀ s t : State, step s = .next t → t.block.status ≠ s.block.status →
    ∃ (r : Request) (rest : List Request), s.pending = r :: rest ∧
      (opField r.word = 0b10#2 ∨
        (opField r.word = 0b01#2 ∧ offsetField r.word = 0x00000000#32 ∧
          (commandOf (wdataField r.word) = .start ∨ commandOf (wdataField r.word) = .reset)))

/-- Rules R34, R35: the state of the state machine before a transaction and the transaction give the state after
it, by the transition table. The spec infers the rows of `Reset` in IDLE and of `Start` in OPERATION_COMPLETE ("self-transitions
[derived: from 41_bus_write.md rules R79, R80]") and that a legal STATUS is one of two values (R23). That an ill-formed
term has its row's effect is log entry 16, and that other values of STATUS may have no state is log entry 11. -/
def Obligations.StateMachineFollowsTransitionTable : Prop :=
  (∀ b : Block, b.StatusLegal → ∃ f, fsmOf b.status = some f) ∧
  ∀ (i : Instr) (s : State) (f : Fsm), fsmOf s.block.status = some f →
    ∃ t, exec i s = .next t ∧ fsmOf t.block.status = some (f.next i)

/-! ## Refinement, runs and histories -/

/-- Rules R2, R9, R66: a step of the machine is the block's transaction function, written from the three
operations apart from the opcode map, on the transaction the oldest request carries. Both follow
92_eei_decisions.md D7 for `operation_active` after a START (log entry 5), so their agreement on that element says no more
than that the model makes one choice throughout. -/
def Obligations.StepRefinesTransactionFunction : Prop :=
  ∀ (s : State) (T : TxnWord) (rest : List Request) (x : Txn),
    s.pending = Request.whole T :: rest → decodeTxn T = .ok x →
    ∃ t, step s = .next t ∧
      t.functional = ((transact x s.block).1, rest, s.responses ++ [(transact x s.block).2.1])

/-- Rules R58, R108: a stream of any length, of requests the boundary accepts, runs to its end, with one response
for each request. -/
def Obligations.RunAnswersEveryRequest : Prop :=
  ∀ s : State, (∀ r ∈ s.pending, r.accepted = true) →
    ∃ t, runSteps s.pending.length s = .next t ∧ t.pending = [] ∧
      t.responses.length = s.responses.length + s.pending.length

/-- Rules R17, R49: after any history of transactions a read answers what the most recent transaction that wrote
the register left in it, or what the register held before the history. -/
def Obligations.ReadAnswersMostRecentWrite : Prop :=
  ∀ (s : State) (history : List Instr) (r : Reg), s.block.Inv → (∀ i ∈ history, i.wf = true) →
    ∃ t, runSteps (history.length + 1)
        (s.withPending ((history ++ [r.readInstr]).map requestOf)) = .next t ∧
      t.pending = [] ∧
      t.responses.getLast? = some (.readData (lastStored r (s.block.get r) history)) ∧
      ∀ r' : Reg, t.block.get r' = lastStored r' (s.block.get r') history

/-- Rules R21, R113: after a START, DONE reads 1 and BUSY reads 0 through any history of transactions that holds no
RESET command and no `Reset()`. -/
def Obligations.DoneStaysSetUntilCleared : Prop :=
  ∀ (s : State) (v : Word) (history : List Instr), commandOf v = .start →
    (∀ i ∈ history, i.wf = true ∧ i.clearsDone = false) →
    ∃ t rdata, runSteps (history.length + 2)
        (s.withPending ((Instr.writeCtrlStart v :: (history ++ [Instr.readStatus])).map requestOf)) = .next t ∧
      t.responses.getLast? = some (.readData rdata) ∧
      statusDone rdata = true ∧ statusBusy rdata = false

/-- Rule R46: a read changes no state element, and the reads of a transaction stream can be left out without
changing what any register holds at its end. -/
def Obligations.ReadsHaveNoSideEffect : Prop :=
  (∀ (i : Instr) (s t : State), i.isRead = true → exec i s = .next t → t.block = s.block) ∧
  ∀ (s : State) (history : List Instr), (∀ i ∈ history, i.wf = true) →
    ∃ t u, runSteps history.length (s.withPending (history.map requestOf)) = .next t ∧
      runSteps (history.filter fun i => !i.isRead).length
        (s.withPending ((history.filter fun i => !i.isRead).map requestOf)) = .next u ∧
      t.block = u.block

/-- Rules R48, R89: running one transaction twice in a row leaves the block as running it once does. -/
def Obligations.TransactionsAreIdempotent : Prop :=
  ∀ (i : Instr) (s : State), i.wf = true →
    ∃ t u, runSteps 1 (s.withPending [requestOf i]) = .next t ∧
      runSteps 2 (s.withPending [requestOf i, requestOf i]) = .next u ∧ u.block = t.block

/-- Rule R115: a read of CTRL, DMA_ADDR or DMA_LEN right after a write to it answers the value written, commands
in it or not, and a read of STATUS right after a RESET command answers 0x00000000. -/
def Obligations.NextReadSeesTheWrite : Prop :=
  (∀ (s : State) (rest : List Request) (r : Reg) (v w : Word), r ≠ .status →
    s.pending = Request.whole (packWord opBusWrite r.offset v) ::
      Request.whole (packWord opBusRead r.offset w) :: rest →
    ∃ t, runSteps 2 s = .next t ∧ t.pending = rest ∧ t.responses = s.responses ++ [.done, .readData v]) ∧
  ∀ (s : State) (rest : List Request) (v w : Word), commandOf v = .reset →
    s.pending = Request.whole (packWord opBusWrite 0x00000000#32 v) ::
      Request.whole (packWord opBusRead 0x00000004#32 w) :: rest →
    ∃ t, runSteps 2 s = .next t ∧ t.pending = rest ∧
      t.responses = s.responses ++ [.done, .readData 0x00000000#32]

/-! ## What does not depend on what -/

/-- Rule R95: over a run of any length, no state element, response or completion depends on the diagnostic output. -/
def Obligations.NothingDependsOnDiagnostics : Prop :=
  ∀ (k : Nat) (s : State) (ds : List Diag),
    (∀ t, runSteps k s = .next t →
      ∃ u, runSteps k { s with diags := ds } = .next u ∧ u.functional = t.functional) ∧
    (∀ e, runSteps k s = .refused e → runSteps k { s with diags := ds } = .refused e)

/-- Rules R24, R25, R55: over any history without a read of a DMA register, what the DMA registers held at the start
changes no response, nor CTRL, STATUS or the flag: nothing acts on them. -/
def Obligations.DmaRegistersAreNotActedUpon : Prop :=
  ∀ (s : State) (a l : Word) (history : List Instr),
    (∀ i ∈ history, i.wf = true ∧ i ≠ .readDmaAddr ∧ i ≠ .readDmaLen) →
    ∃ t u, runSteps history.length (s.withPending (history.map requestOf)) = .next t ∧
      runSteps history.length
        ((s.withBlock { s.block with dmaAddr := a, dmaLen := l }).withPending (history.map requestOf)) =
        .next u ∧
      u.responses = t.responses ∧ u.block.ctrl = t.block.ctrl ∧ u.block.status = t.block.status ∧
      u.block.operationActive = t.block.operationActive

/-- Rule R105: a step or a `Reset()` of one block changes no other block. -/
def Obligations.BlocksShareNoState : Prop :=
  ∀ (sys : System) (k j : Nat), j ≠ k →
    (∀ sys', stepAt k sys = .next sys' → sys'.length = sys.length ∧ sys'[j]? = sys[j]?) ∧
    (resetAt sys k).length = sys.length ∧ (resetAt sys k)[j]? = sys[j]?

/-- Rule R112 and 92_eei_decisions.md D14: the order in which a system reset resets its blocks makes no difference
(log entry 18). That each `Reset()` comes ahead of the requests its block has pending is log entry 23. -/
def Obligations.SystemResetOrderDoesNotMatter : Prop :=
  ∀ (sys : System) (order order' : List Nat), order.Perm order' →
    resetInOrder order sys = resetInOrder order' sys

/-- Rule R50: an interleaving of several masters' streams keeps each master's own order, and delivers or keeps every
request (92_eei_decisions.md D13, log entry 14). -/
def Obligations.InterleavingKeepsEachMastersOrder : Prop :=
  ∀ (schedule : List Nat) (streams : List (List Request)) (delivered : List (Nat × Request))
    (rest : List (List Request)),
    serialise schedule streams = some (delivered, rest) →
    rest.length = streams.length ∧ delivered.map Prod.fst = schedule ∧
      ∀ m, deliveredBy m delivered ++ rest.getD m [] = streams.getD m []

/-! ## The platform and the notations -/

/-- Rule R43: in both byte orders the four byte lanes carry the word and nothing else, and in little-endian order lane
`k` carries word bits `[8k+7:8k]`. That big-endian order is the same lanes from the other end is the model's
reading (DEDUCED, log entry 12). -/
def Obligations.ByteLanesCarryTheWord : Prop :=
  (∀ (o : ByteOrder) (w : Word),
    wordOfLanes o (byteLane o w 0) (byteLane o w 1) (byteLane o w 2) (byteLane o w 3) = w) ∧
  (∀ (o : ByteOrder) (b0 b1 b2 b3 : Byte),
    byteLane o (wordOfLanes o b0 b1 b2 b3) 0 = b0 ∧ byteLane o (wordOfLanes o b0 b1 b2 b3) 1 = b1 ∧
    byteLane o (wordOfLanes o b0 b1 b2 b3) 2 = b2 ∧ byteLane o (wordOfLanes o b0 b1 b2 b3) 3 = b3) ∧
  ∀ (w : Word) (k : Fin 4) (i : Nat), i < 8 → (byteLane .little w k).getLsbD i = w.getLsbD (8 * k.val + i)

/-- Rule R43: on every platform, while the bus carries a word at an offset, byte `k` stands at bus address
`PERIPH_BASE + offset + k` and is lane `k` in the platform's byte order, and no other address carries a byte of it. On a
little-endian platform, which is the default, its bits are word bits `[8k+7:8k]`. The big-endian lanes are log
entry 12. -/
def Obligations.BusBytesStandAtTheirAddresses : Prop :=
  (∀ base span : Nat, ({ periphBase := base, periphSpan := span } : Platform).busByteOrder = .little) ∧
  ∀ (p : Platform) (offset w : Word),
    (∀ k : Fin 4, busByte p offset w (p.periphBase + offset.toNat + k.val) =
      some (byteLane p.busByteOrder w k)) ∧
    (∀ addr : Nat, addr < p.periphBase + offset.toNat ∨ p.periphBase + offset.toNat + 4 ≤ addr →
      busByte p offset w addr = none) ∧
    (p.busByteOrder = .little → ∀ (k : Fin 4) (i : Nat), i < 8 →
      (busByte p offset w (p.periphBase + offset.toNat + k.val)).map (·.getLsbD i) =
        some (w.getLsbD (8 * k.val + i)))

/-- Rules R41, R43, R115: on every platform, the four bytes of a whole-word write to CTRL, DMA_ADDR or DMA_LEN are the four
bytes a read of it right after answers, each at the bus address it was written to. The translation and the byte order
are log entry 12. -/
def Obligations.BusBytesWrittenAreReadBack : Prop :=
  ∀ (p : Platform) (s : State) (rest : List Request) (r : Reg) (data other : Lanes), p.wf = true → r ≠ .status →
    ∃ put take,
      routeAccess p ⟨true, laneAddr p r.offset 0, 4, data⟩ = some put ∧
      routeAccess p ⟨false, laneAddr p r.offset 0, 4, other⟩ = some take ∧
      ∃ t answer, runSteps 2 (s.withPending (put :: take :: rest)) = .next t ∧ t.pending = rest ∧
        t.responses = s.responses ++ [.done, answer] ∧
        ∀ k : Fin 4, respByte p r.offset answer (laneAddr p r.offset k) = some (data.get k)

/-- Rule R41 and 92_eei_decisions.md D5: on every platform, the bus gives the block each offset of its range from the
address that many bytes above the base, and no access from outside the range. Offsets from 0x10 on are unmapped
(log entry 12). -/
def Obligations.BusAddressesTranslateToOffsets : Prop :=
  ∀ p : Platform, p.wf = true →
    (∀ offset : Word, offset.toNat < p.periphSpan →
      offsetOfAddr p (p.periphBase + offset.toNat) = some offset) ∧
    (∀ (addr : Nat) (offset : Word), offsetOfAddr p addr = some offset →
      addr = p.periphBase + offset.toNat ∧ offset.toNat < p.periphSpan) ∧
    ∀ (addr : Nat) (offset : Word), offsetOfAddr p addr = some offset → p.periphBase + 0x10 ≤ addr →
      decodeOffset offset = .unmapped

/-- Rules R41, R42: a whole-word access of a bus master, on every platform, is the transaction of its offset, and any
other width is refused at the block's boundary. The translation and the byte order are log entry 12, the refusal is
92_eei_decisions.md D4 (log entry 7), and `operation_active` after a START follows D7 here as in the transaction function
(log entry 5). -/
def Obligations.WholeWordAccessesAreTransactions : Prop :=
  ∀ (p : Platform) (a : BusAccess) (offset : Word) (s : State) (rest : List Request),
    offsetOfAddr p a.addr = some offset →
    ∃ r, routeAccess p a = some r ∧
      (a.bytes = 4 → ∃ t, step (s.withPending (r :: rest)) = .next t ∧
        t.functional = ((transact (a.txn p offset) s.block).1, rest,
          s.responses ++ [(transact (a.txn p offset) s.block).2.1])) ∧
      (a.bytes ≠ 4 → step (s.withPending (r :: rest)) = .refused .accessWidth)

/-- Rules R69, R70: the script line of a transaction is exactly that transaction (92_eei_decisions.md D9, log
entry 13). -/
def Obligations.ScriptLineIsItsTransaction : Prop :=
  ∀ x : Txn, readScript (writeScript x) = some x
end

