-- ==== Sys2Proof/Laws/Decode.lean ====
section
/-! SUPPORT. The small lemmas of the decoder: the fields of a packed word, what the two decode functions can
answer, and which transaction a packed word selects. -/

namespace Sys2Proof

@[simp] theorem opField_packWord (op : BitVec 2) (offset v : Word) : opField (packWord op offset v) = op := by
  apply BitVec.eq_of_getLsbD_eq
  intro i hi
  simp only [opField, packWord, BitVec.getLsbD_extractLsb', BitVec.getLsbD_append]
  simp [hi, show ¬ 64 + i < 32 by omega, show ¬ 64 + i - 32 < 32 by omega, show 64 + i - 32 - 32 = i by omega]

@[simp] theorem offsetField_packWord (op : BitVec 2) (offset v : Word) :
    offsetField (packWord op offset v) = offset := by
  apply BitVec.eq_of_getLsbD_eq
  intro i hi
  simp only [offsetField, packWord, BitVec.getLsbD_extractLsb', BitVec.getLsbD_append]
  simp [hi]

@[simp] theorem wdataField_packWord (op : BitVec 2) (offset v : Word) :
    wdataField (packWord op offset v) = v := by
  apply BitVec.eq_of_getLsbD_eq
  intro i hi
  simp only [wdataField, packWord, BitVec.getLsbD_extractLsb', BitVec.getLsbD_append]
  simp [hi]

/-- A transaction word is its three fields. -/
theorem packWord_fields (T : TxnWord) : packWord (opField T) (offsetField T) (wdataField T) = T := by
  apply BitVec.eq_of_getLsbD_eq
  intro i hi
  simp only [packWord, opField, offsetField, wdataField, BitVec.getLsbD_extractLsb', BitVec.getLsbD_append]
  by_cases h1 : i < 32
  · simp [h1]
  · by_cases h2 : i - 32 < 32
    · simp [h1, h2, show 32 + (i - 32) = i by omega]
    · simp [h1, h2, show i - 32 - 32 < 2 by omega, show 64 + (i - 32 - 32) = i by omega]

/-- A register's offset decodes to the register (rule R62). -/
@[simp] theorem decodeOffset_regOffset (r : Reg) : decodeOffset r.offset = .mapped r := by
  cases r <;> decide

/-- An offset that decodes to a register is the register's offset: no register is aliased (rule R40). -/
theorem offset_of_decode_mapped {offset : Word} {r : Reg} (h : decodeOffset offset = .mapped r) :
    offset = r.offset := by
  unfold decodeOffset at h
  split at h
  · rename_i h0; cases h; exact h0
  · split at h
    · rename_i h0; cases h; exact h0
    · split at h
      · rename_i h0; cases h; exact h0
      · split at h
        · rename_i h0; cases h; exact h0
        · cases h

/-- What a CTRL write's command can be, with the bits that give it (rule R63). -/
theorem commandOf_cases (v : Word) :
    (commandOf v = .start ∧ v.getLsbD startBit = true) ∨
    (commandOf v = .reset ∧ v.getLsbD startBit = false ∧ v.getLsbD resetBit = true) ∨
    (commandOf v = .unrecognized ∧ v.getLsbD startBit = false ∧ v.getLsbD resetBit = false) := by
  unfold commandOf
  cases h0 : v.getLsbD startBit <;> cases h1 : v.getLsbD resetBit <;> simp

/-- Which transaction a packed word selects, by its op (rule R66). -/
@[simp] theorem decodeTxn_read (offset v : Word) :
    decodeTxn (packWord opBusRead offset v) = .ok (.busRead offset) := by
  simp [decodeTxn]

@[simp] theorem decodeTxn_write (offset v : Word) :
    decodeTxn (packWord opBusWrite offset v) = .ok (.busWrite offset v) := by
  simp [decodeTxn, show opBusWrite ≠ opBusRead by decide]

@[simp] theorem decodeTxn_reset (offset v : Word) : decodeTxn (packWord opReset offset v) = .ok .reset := by
  simp [decodeTxn, show opReset ≠ opBusRead by decide, show opReset ≠ opBusWrite by decide]

/-- The one way a transaction word can fail to decode: its op is reserved (rule R61). -/
theorem op_of_decodeTxn_error {T : TxnWord} {e : DecodeError} (h : decodeTxn T = .error e) :
    opField T ≠ opBusRead ∧ opField T ≠ opBusWrite ∧ opField T ≠ opReset := by
  unfold decodeTxn at h
  split at h
  · cases h
  · split at h
    · cases h
    · split at h
      · cases h
      · exact ⟨by assumption, by assumption, by assumption⟩

end Sys2Proof
end

