-- ==== Sys2Proof/Laws/Boundary.lean ====
section
/-! SUPPORT. What the block's boundary makes of a request, said once. -/

namespace Sys2Proof.Machine

/-- A whole-word request is accepted exactly when its word decodes, and carries what it decodes to. -/
theorem acceptRequest_whole (T : TxnWord) :
    acceptRequest (Request.whole T) =
      match decode T with
      | .ok i => .ok i
      | .error .reservedOp => .error .reservedOp := by
  unfold acceptRequest decode Request.whole
  cases decodeTxn T with
  | error e => cases e; rfl
  | ok t => cases t <;> rfl

/-- A whole-word request whose word decodes is accepted. -/
theorem acceptRequest_of_decode {T : TxnWord} {i : Instr} (h : decode T = .ok i) :
    acceptRequest (Request.whole T) = .ok i := by
  rw [acceptRequest_whole, h]

/-- What an accepted request is: its word decodes to the instruction, and it is a whole word or a `Reset()`. -/
theorem decode_of_accepted {r : Request} {i : Instr} (h : acceptRequest r = .ok i) :
    decode r.word = .ok i ∧ (r.bytes = 4 ∨ i = .reset) := by
  unfold acceptRequest at h
  unfold decode
  cases hT : decodeTxn r.word with
  | error e => cases e; simp [hT] at h
  | ok t =>
    cases t with
    | reset =>
      simp only [hT, Except.ok.injEq] at h
      subst h
      exact ⟨rfl, .inr rfl⟩
    | busRead offset =>
      simp only [hT] at h
      split at h
      · rename_i hb; exact ⟨by simpa using h, .inl hb⟩
      · cases h
    | busWrite offset v =>
      simp only [hT] at h
      split at h
      · rename_i hb; exact ⟨by simpa using h, .inl hb⟩
      · cases h

end Sys2Proof.Machine
end

