-- ==== Sys2Proof/Laws/Bus.lean ====
section
/-! SUPPORT. The small lemmas of the block on a bus: the lanes of four bytes and the byte at a lane's address. -/

namespace Sys2Proof.Machine

@[simp] theorem Lanes.get_zero (d : Lanes) : d.get 0 = d.b0 := rfl
@[simp] theorem Lanes.get_one (d : Lanes) : d.get 1 = d.b1 := rfl
@[simp] theorem Lanes.get_two (d : Lanes) : d.get 2 = d.b2 := rfl
@[simp] theorem Lanes.get_three (d : Lanes) : d.get 3 = d.b3 := rfl

/-- The lanes of a word stand at four different addresses. -/
@[simp] theorem laneAddr_inj (p : Platform) (offset : Word) (j k : Fin 4) :
    laneAddr p offset j = laneAddr p offset k ↔ j = k := by
  simp only [laneAddr, Fin.ext_iff]
  omega

@[simp] theorem respByte_readData (p : Platform) (offset w : Word) (addr : Nat) :
    respByte p offset (.readData w) addr = busByte p offset w addr := rfl

@[simp] theorem respByte_done (p : Platform) (offset : Word) (addr : Nat) :
    respByte p offset .done addr = none := rfl

end Sys2Proof.Machine
end

