-- ==== Sys2Proof/Laws/Flags.lean ====
section
/-! SUPPORT. What a START does to STATUS, said once. -/

namespace Sys2Proof.Machine

/-- A START sets DONE, clears BUSY and keeps every other bit of STATUS (rule R79). -/
theorem getLsbD_startStatus (status : Word) (i : Nat) :
    (startStatus status).getLsbD i = if i = 0 then true else if i = 1 then false else status.getLsbD i := by
  have hb : busyMask = BitVec.ofNat 32 (2 ^ 1) := rfl
  have hd : doneMask = BitVec.ofNat 32 (2 ^ 0) := rfl
  simp only [startStatus, hb, hd, BitVec.getLsbD_and, BitVec.getLsbD_or,
    BitVec.getLsbD_not, BitVec.getLsbD_ofNat, Nat.testBit_two_pow]
  rcases i with _ | _ | i
  · simp
  · simp
  · by_cases h : i + 2 < 32
    · simp [h]
    · simp [h, BitVec.getLsbD_of_ge _ _ (Nat.le_of_not_lt h)]

/-- From either value rule R23 allows, a START leaves 0x00000001. -/
theorem startStatus_of_legal {status : Word} (h : status = 0x00000000#32 ∨ status = 0x00000001#32) :
    startStatus status = 0x00000001#32 := by
  rcases h with h | h <;> subst h <;> decide

end Sys2Proof.Machine
end

