-- ==== Sys2Proof/Laws/PerInstr.lean ====
section
/-! SUPPORT. The families of lemmas that hold one lemma per constructor of `Instr`. -/

namespace Sys2Proof.Laws

/-! ## EncodedOp: the op field of an instruction's word -/

/-- The op of the kind of transaction an instruction is (rules R59, R72). -/
def opOf (i : Instr) : BitVec 2 :=
  match i.row with
  | .readCtrl => opBusRead
  | .readStatus => opBusRead
  | .readDmaAddr => opBusRead
  | .readDmaLen => opBusRead
  | .readUnmapped => opBusRead
  | .writeCtrlStart => opBusWrite
  | .writeCtrlReset => opBusWrite
  | .writeCtrlNocmd => opBusWrite
  | .writeStatus => opBusWrite
  | .writeDmaAddr => opBusWrite
  | .writeDmaLen => opBusWrite
  | .writeUnmapped => opBusWrite
  | .reset => opReset

/-- The word of an instruction has the op of its kind in bits 65:64, so it is not the reserved op. -/
def EncodedOp.Statement (i : Instr) : Prop := opField (encode i) = opOf i ∧ opOf i ≠ 0b11#2

theorem EncodedOp.readCtrl : EncodedOp.Statement .readCtrl :=
  ⟨opField_packWord _ _ _, (by decide : opBusRead ≠ 0b11#2)⟩

theorem EncodedOp.readStatus : EncodedOp.Statement .readStatus :=
  ⟨opField_packWord _ _ _, (by decide : opBusRead ≠ 0b11#2)⟩

theorem EncodedOp.readDmaAddr : EncodedOp.Statement .readDmaAddr :=
  ⟨opField_packWord _ _ _, (by decide : opBusRead ≠ 0b11#2)⟩

theorem EncodedOp.readDmaLen : EncodedOp.Statement .readDmaLen :=
  ⟨opField_packWord _ _ _, (by decide : opBusRead ≠ 0b11#2)⟩

theorem EncodedOp.readUnmapped (offset : Word) : EncodedOp.Statement (.readUnmapped offset) :=
  ⟨opField_packWord _ _ _, (by decide : opBusRead ≠ 0b11#2)⟩

theorem EncodedOp.writeCtrlStart (v : Word) : EncodedOp.Statement (.writeCtrlStart v) :=
  ⟨opField_packWord _ _ _, (by decide : opBusWrite ≠ 0b11#2)⟩

theorem EncodedOp.writeCtrlReset (v : Word) : EncodedOp.Statement (.writeCtrlReset v) :=
  ⟨opField_packWord _ _ _, (by decide : opBusWrite ≠ 0b11#2)⟩

theorem EncodedOp.writeCtrlNocmd (v : Word) : EncodedOp.Statement (.writeCtrlNocmd v) :=
  ⟨opField_packWord _ _ _, (by decide : opBusWrite ≠ 0b11#2)⟩

theorem EncodedOp.writeStatus (v : Word) : EncodedOp.Statement (.writeStatus v) :=
  ⟨opField_packWord _ _ _, (by decide : opBusWrite ≠ 0b11#2)⟩

theorem EncodedOp.writeDmaAddr (v : Word) : EncodedOp.Statement (.writeDmaAddr v) :=
  ⟨opField_packWord _ _ _, (by decide : opBusWrite ≠ 0b11#2)⟩

theorem EncodedOp.writeDmaLen (v : Word) : EncodedOp.Statement (.writeDmaLen v) :=
  ⟨opField_packWord _ _ _, (by decide : opBusWrite ≠ 0b11#2)⟩

theorem EncodedOp.writeUnmapped (offset v : Word) : EncodedOp.Statement (.writeUnmapped offset v) :=
  ⟨opField_packWord _ _ _, (by decide : opBusWrite ≠ 0b11#2)⟩

theorem EncodedOp.reset : EncodedOp.Statement .reset :=
  ⟨opField_packWord _ _ _, (by decide : opReset ≠ 0b11#2)⟩

end Sys2Proof.Laws
end

