-- ==== Sys2Proof/Laws/Run.lean ====
section
/-! SUPPORT. How a run unfolds, one step at a time, and that it is the host's run of the machine. -/

namespace Sys2Proof.Machine

theorem runSteps_zero (s : State) : runSteps 0 s = .next s := rfl

/-- A run whose first step answers a next state goes on from there. -/
theorem runSteps_of_next {s t : State} (k : Nat) (h : step s = .next t) :
    runSteps (k + 1) s = runSteps k t := by
  simp only [runSteps, h]

/-- A run whose first step is refused ends there. -/
theorem runSteps_of_refused {s : State} {e : Refusal} (k : Nat) (h : step s = .refused e) :
    runSteps (k + 1) s = .refused e := by
  simp only [runSteps, h]

/-- The run of the claims is the host's run of `Sys2Proof.core`. -/
theorem runSteps_eq_core_run (k : Nat) (s : State) : runSteps k s = Host.Core.run Sys2Proof.core k s := by
  induction k generalizing s with
  | zero => rfl
  | succ k ih =>
    simp only [runSteps, Host.Core.run, show Sys2Proof.core.step s = step s from rfl]
    cases step s with
    | next t => exact ih t
    | fault f => rfl
    | refused e => rfl

end Sys2Proof.Machine
end

