-- ==== Sys2Proof/Laws/State.lean ====
section
/-! SUPPORT. One lemma per field per update of the block and of the machine, so that no proof unfolds a record
update. -/

namespace Sys2Proof.Machine

/-! ## The block's elements -/

@[simp] theorem Block.get_ctrl (b : Block) : b.get .ctrl = b.ctrl := rfl
@[simp] theorem Block.get_status (b : Block) : b.get .status = b.status := rfl
@[simp] theorem Block.get_dmaAddr (b : Block) : b.get .dmaAddr = b.dmaAddr := rfl
@[simp] theorem Block.get_dmaLen (b : Block) : b.get .dmaLen = b.dmaLen := rfl

@[simp] theorem Block.set_ctrl_ctrl (b : Block) (v : Word) : (b.set .ctrl v).ctrl = v := rfl
@[simp] theorem Block.set_ctrl_status (b : Block) (v : Word) : (b.set .ctrl v).status = b.status := rfl
@[simp] theorem Block.set_ctrl_dmaAddr (b : Block) (v : Word) : (b.set .ctrl v).dmaAddr = b.dmaAddr := rfl
@[simp] theorem Block.set_ctrl_dmaLen (b : Block) (v : Word) : (b.set .ctrl v).dmaLen = b.dmaLen := rfl

@[simp] theorem Block.set_status_ctrl (b : Block) (v : Word) : (b.set .status v).ctrl = b.ctrl := rfl
@[simp] theorem Block.set_status_status (b : Block) (v : Word) : (b.set .status v).status = v := rfl
@[simp] theorem Block.set_status_dmaAddr (b : Block) (v : Word) :
    (b.set .status v).dmaAddr = b.dmaAddr := rfl
@[simp] theorem Block.set_status_dmaLen (b : Block) (v : Word) : (b.set .status v).dmaLen = b.dmaLen := rfl

@[simp] theorem Block.set_dmaAddr_ctrl (b : Block) (v : Word) : (b.set .dmaAddr v).ctrl = b.ctrl := rfl
@[simp] theorem Block.set_dmaAddr_status (b : Block) (v : Word) :
    (b.set .dmaAddr v).status = b.status := rfl
@[simp] theorem Block.set_dmaAddr_dmaAddr (b : Block) (v : Word) : (b.set .dmaAddr v).dmaAddr = v := rfl
@[simp] theorem Block.set_dmaAddr_dmaLen (b : Block) (v : Word) :
    (b.set .dmaAddr v).dmaLen = b.dmaLen := rfl

@[simp] theorem Block.set_dmaLen_ctrl (b : Block) (v : Word) : (b.set .dmaLen v).ctrl = b.ctrl := rfl
@[simp] theorem Block.set_dmaLen_status (b : Block) (v : Word) : (b.set .dmaLen v).status = b.status := rfl
@[simp] theorem Block.set_dmaLen_dmaAddr (b : Block) (v : Word) :
    (b.set .dmaLen v).dmaAddr = b.dmaAddr := rfl
@[simp] theorem Block.set_dmaLen_dmaLen (b : Block) (v : Word) : (b.set .dmaLen v).dmaLen = v := rfl

@[simp] theorem Block.set_operationActive (b : Block) (r : Reg) (v : Word) :
    (b.set r v).operationActive = b.operationActive := by
  cases r <;> rfl

@[simp] theorem Block.setActive_ctrl (b : Block) (a : Bool) : (b.setActive a).ctrl = b.ctrl := rfl
@[simp] theorem Block.setActive_status (b : Block) (a : Bool) : (b.setActive a).status = b.status := rfl
@[simp] theorem Block.setActive_dmaAddr (b : Block) (a : Bool) : (b.setActive a).dmaAddr = b.dmaAddr := rfl
@[simp] theorem Block.setActive_dmaLen (b : Block) (a : Bool) : (b.setActive a).dmaLen = b.dmaLen := rfl
@[simp] theorem Block.setActive_operationActive (b : Block) (a : Bool) :
    (b.setActive a).operationActive = a := rfl

/-- Storing into a register and reading it gives the value stored. -/
@[simp] theorem Block.get_set_same (b : Block) (r : Reg) (v : Word) : (b.set r v).get r = v := by
  cases r <;> rfl

/-- Storing into a register leaves every other register alone. -/
theorem Block.get_set_other (b : Block) {r r' : Reg} (v : Word) (h : r' ≠ r) :
    (b.set r v).get r' = b.get r' := by
  cases r <;> cases r' <;> first | rfl | exact absurd rfl h

@[simp] theorem Block.get_setActive (b : Block) (r : Reg) (a : Bool) : (b.setActive a).get r = b.get r := by
  cases r <;> rfl

/-- `Reset()` leaves the reset state, whatever the block held (rule R88). -/
@[simp] theorem Block.zeroed_eq (b : Block) : b.zeroed = Block.reset := rfl

@[simp] theorem Block.get_reset (r : Reg) : Block.reset.get r = 0x00000000#32 := by
  cases r <;> rfl

@[simp] theorem Block.reset_status : Block.reset.status = 0x00000000#32 := rfl
@[simp] theorem Block.reset_operationActive : Block.reset.operationActive = false := rfl

@[simp] theorem rdataOf_mapped (b : Block) (r : Reg) : rdataOf b (.mapped r) = b.get r := rfl
@[simp] theorem rdataOf_unmapped (b : Block) : rdataOf b .unmapped = 0x00000000#32 := rfl

/-! ## The machine's fields -/

@[simp] theorem State.withBlock_block (s : State) (b : Block) : (s.withBlock b).block = b := rfl
@[simp] theorem State.withBlock_pending (s : State) (b : Block) : (s.withBlock b).pending = s.pending := rfl
@[simp] theorem State.withBlock_responses (s : State) (b : Block) :
    (s.withBlock b).responses = s.responses := rfl
@[simp] theorem State.withBlock_diags (s : State) (b : Block) : (s.withBlock b).diags = s.diags := rfl

@[simp] theorem State.respond_block (s : State) (r : Resp) : (s.respond r).block = s.block := rfl
@[simp] theorem State.respond_pending (s : State) (r : Resp) : (s.respond r).pending = s.pending := rfl
@[simp] theorem State.respond_responses (s : State) (r : Resp) :
    (s.respond r).responses = s.responses ++ [r] := rfl
@[simp] theorem State.respond_diags (s : State) (r : Resp) : (s.respond r).diags = s.diags := rfl

@[simp] theorem State.emit_block (s : State) (d : Diag) : (s.emit d).block = s.block := rfl
@[simp] theorem State.emit_pending (s : State) (d : Diag) : (s.emit d).pending = s.pending := rfl
@[simp] theorem State.emit_responses (s : State) (d : Diag) : (s.emit d).responses = s.responses := rfl
@[simp] theorem State.emit_diags (s : State) (d : Diag) : (s.emit d).diags = s.diags ++ [d] := rfl

@[simp] theorem State.withPending_block (s : State) (rs : List Request) :
    (s.withPending rs).block = s.block := rfl
@[simp] theorem State.withPending_pending (s : State) (rs : List Request) :
    (s.withPending rs).pending = rs := rfl
@[simp] theorem State.withPending_responses (s : State) (rs : List Request) :
    (s.withPending rs).responses = s.responses := rfl
@[simp] theorem State.withPending_diags (s : State) (rs : List Request) :
    (s.withPending rs).diags = s.diags := rfl

@[simp] theorem State.withPending_withPending (s : State) (rs rs' : List Request) :
    (s.withPending rs).withPending rs' = s.withPending rs' := rfl

@[simp] theorem State.completeRead_block (s : State) (v : Word) : (s.completeRead v).block = s.block := rfl
@[simp] theorem State.completeRead_pending (s : State) (v : Word) :
    (s.completeRead v).pending = s.pending := rfl
@[simp] theorem State.completeRead_responses (s : State) (v : Word) :
    (s.completeRead v).responses = s.responses ++ [.readData v] := rfl
@[simp] theorem State.completeRead_diags (s : State) (v : Word) : (s.completeRead v).diags = s.diags := rfl

@[simp] theorem State.completeWrite_block (s : State) (b : Block) (d : Diag) :
    (s.completeWrite b d).block = b := rfl
@[simp] theorem State.completeWrite_pending (s : State) (b : Block) (d : Diag) :
    (s.completeWrite b d).pending = s.pending := rfl
@[simp] theorem State.completeWrite_responses (s : State) (b : Block) (d : Diag) :
    (s.completeWrite b d).responses = s.responses ++ [.done] := rfl
@[simp] theorem State.completeWrite_diags (s : State) (b : Block) (d : Diag) :
    (s.completeWrite b d).diags = s.diags ++ [d] := rfl

@[simp] theorem State.completeReset_block (s : State) : s.completeReset.block = Block.reset := rfl
@[simp] theorem State.completeReset_pending (s : State) : s.completeReset.pending = s.pending := rfl
@[simp] theorem State.completeReset_responses (s : State) :
    s.completeReset.responses = s.responses ++ [.done] := rfl
@[simp] theorem State.completeReset_diags (s : State) : s.completeReset.diags = s.diags := rfl

end Sys2Proof.Machine
end

