-- ==== Sys2Proof/Laws/Step.lean ====
section
/-! SUPPORT. What a step can do, said once: every instruction completes, and a step idles, runs the instruction
of the oldest request, or refuses that request. -/

namespace Sys2Proof.Machine

/-- Every instruction answers a next state: none faults and none is refused (rules R58, R90). -/
theorem exec_completes (i : Instr) (s : State) : ∃ t, exec i s = .next t := by
  cases i <;> exact ⟨_, rfl⟩

/-- No instruction takes or adds a request. -/
theorem exec_pending {i : Instr} {s t : State} (h : exec i s = .next t) : t.pending = s.pending := by
  cases i <;> (injection h with h; subst h; rfl)

/-- Every instruction answers exactly one response (rule R58). -/
theorem exec_responses_length {i : Instr} {s t : State} (h : exec i s = .next t) :
    t.responses.length = s.responses.length + 1 := by
  cases i <;> (injection h with h; subst h; simp [State.completeRead, State.completeWrite, State.completeReset,
    State.respond, State.emit, State.withBlock])

/-- What a step can answer: it idles, or it runs the instruction the oldest request carries, or it refuses that
request. -/
theorem step_cases (s : State) :
    (s.pending = [] ∧ step s = .next s) ∨
    (∃ r rest i, s.pending = r :: rest ∧ acceptRequest r = .ok i ∧ step s = exec i (s.withPending rest)) ∨
    (∃ r rest e, s.pending = r :: rest ∧ acceptRequest r = .error e ∧ step s = .refused e) := by
  unfold step
  split
  · exact .inl ⟨by assumption, rfl⟩
  · rename_i r rest hp
    cases h : acceptRequest r with
    | ok i => exact .inr (.inl ⟨r, rest, i, hp, h, rfl⟩)
    | error e => exact .inr (.inr ⟨r, rest, e, hp, h, rfl⟩)

/-- What a step that answers a next state did: it idled, or it ran one instruction. -/
theorem step_next_cases {s t : State} (h : step s = .next t) :
    (s.pending = [] ∧ t = s) ∨
    (∃ r rest i, s.pending = r :: rest ∧ acceptRequest r = .ok i ∧ exec i (s.withPending rest) = .next t) := by
  obtain ⟨hp, hs⟩ | ⟨r, rest, i, hp, hr, hs⟩ | ⟨r, rest, e, hp, hr, hs⟩ := step_cases s
  · rw [hs] at h
    injection h with h
    exact .inl ⟨hp, h.symm⟩
  · exact .inr ⟨r, rest, i, hp, hr, hs ▸ h⟩
  · rw [hs] at h
    cases h

/-- A step of a state whose oldest request is accepted runs its instruction. -/
theorem step_of_accepted {s : State} {r : Request} {rest : List Request} {i : Instr}
    (hp : s.pending = r :: rest) (hr : acceptRequest r = .ok i) : step s = exec i (s.withPending rest) := by
  unfold step
  rw [hp]
  simp [hr]

end Sys2Proof.Machine
end

