-- ==== Sys2Proof/Tests/Slice0.lean ====
section
/-! SUPPORT. The model's own tests. Expected results are taken from 95_test_vectors.md (the section stands at
each group), or worked out by hand from the rule named. The last part shows, for each statement with hypotheses, values
that meet all of them together. -/

namespace Sys2Proof.Tests

open Sys2Proof.Machine

/-! ## Helpers -/

/-- The state `C` of 95_test_vectors.md. -/
def blockC : Block := ⟨0x00000001#32, 0x00000001#32, 0x80001000#32, 0x00000040#32, true⟩

/-- The state `S` of 95_test_vectors.md, section 3. -/
def blockS : Block := ⟨0xFFFFFFFF#32, 0x00000001#32, 0x12345678#32, 0x9ABCDEF0#32, true⟩

/-- A machine with the given block and nothing else. -/
def machineOf (b : Block) : State := State.reset.withBlock b

/-- What one step on a whole-word request leaves: the block, the responses and the diagnostic events. -/
def oneStep (b : Block) (T : TxnWord) : Option (Block × List Resp × List Diag) :=
  match step ((machineOf b).withPending [Request.whole T]) with
  | .next t => some (t.block, t.responses, t.diags)
  | .fault _ => none
  | .refused _ => none

/-- Why one step on a request is refused. -/
def refusalOf (r : Request) : Option Refusal :=
  match step ((machineOf blockC).withPending [r]) with
  | .next _ => none
  | .fault _ => none
  | .refused e => some e

/-- The instruction a word decodes to, if it decodes to one. -/
def decoded (T : TxnWord) : Option Instr := (decode T).toOption

/-! ## WellFormed: an ill-formed term for each check -/

theorem test_wf_readUnmapped_refuses_mapped : (Instr.readUnmapped 0x00000008#32).wf = false := by decide
theorem test_wf_writeUnmapped_refuses_mapped : (Instr.writeUnmapped 0x00000000#32 0x1#32).wf = false := by decide
theorem test_wf_start_refuses_reset_value : (Instr.writeCtrlStart 0x00000002#32).wf = false := by decide
theorem test_wf_reset_refuses_both_bits : (Instr.writeCtrlReset 0x00000003#32).wf = false := by decide
theorem test_wf_nocmd_refuses_start_value : (Instr.writeCtrlNocmd 0x80000001#32).wf = false := by decide
theorem test_wf_platform_refuses_short_range : (Platform.wf { periphBase := 0, periphSpan := 15 }) = false := by
  decide

/-! ## Decode: one word of each constructor (section 2.3 and the rows of rule R72) -/

theorem test_decode_readCtrl : decoded 0x00000000000000000#66 = some .readCtrl := by decide
theorem test_decode_readCtrl_ignores_wdata : decoded 0x000000000FFFFFFFF#66 = some .readCtrl := by decide
theorem test_decode_readStatus : decoded 0x00000000400000000#66 = some .readStatus := by decide
theorem test_decode_readDmaAddr : decoded 0x00000000800000000#66 = some .readDmaAddr := by decide
theorem test_decode_readDmaLen : decoded 0x00000000C00000000#66 = some .readDmaLen := by decide
theorem test_decode_readUnmapped :
    decoded 0x00000000D00000000#66 = some (.readUnmapped 0x0000000D#32) := by decide
theorem test_decode_readUnmapped_does_not_alias :
    decoded 0x00001000400000000#66 = some (.readUnmapped 0x00010004#32) := by decide
theorem test_decode_start_has_priority :
    decoded 0x10000000000000003#66 = some (.writeCtrlStart 0x00000003#32) := by decide
theorem test_decode_reset_command :
    decoded 0x100000000FFFFFFFE#66 = some (.writeCtrlReset 0xFFFFFFFE#32) := by decide
theorem test_decode_nocmd :
    decoded 0x100000000FFFFFFFC#66 = some (.writeCtrlNocmd 0xFFFFFFFC#32) := by decide
theorem test_decode_writeStatus :
    decoded 0x10000000400000001#66 = some (.writeStatus 0x00000001#32) := by decide
theorem test_decode_writeDmaAddr :
    decoded 0x100000008DEADBEEF#66 = some (.writeDmaAddr 0xDEADBEEF#32) := by decide
theorem test_decode_writeDmaLen :
    decoded 0x10000000C00000100#66 = some (.writeDmaLen 0x00000100#32) := by decide
theorem test_decode_writeUnmapped :
    decoded 0x10000001400000001#66 = some (.writeUnmapped 0x00000014#32 0x00000001#32) := by decide
theorem test_decode_reset_ignores_fields : decoded 0x2123456789ABCDEF0#66 = some .reset := by decide
theorem test_decode_reserved_op : decoded 0x30000000000000000#66 = none := by decide
theorem test_decode_first_row : firstRow 0x10000000000000003#66 = some .writeCtrlStart := by decide

/-- A number with a bit above bit 65 is no transaction word. -/
theorem test_decodeTableWord_too_wide : decodeTableWord 72 (2 ^ 66) = none := by decide

theorem test_decodeTableWord_reset : decodeTableWord 72 0x20000000000000000 = some .reset := by decide

/-! ## Reads (section 3.1) -/

theorem test_read_ctrl :
    oneStep blockS 0x00000000000000000#66 = some (blockS, [.readData 0xFFFFFFFF#32], []) := by decide
theorem test_read_status :
    oneStep blockS 0x00000000400000000#66 = some (blockS, [.readData 0x00000001#32], []) := by decide
theorem test_read_dmaAddr :
    oneStep blockS 0x00000000800000000#66 = some (blockS, [.readData 0x12345678#32], []) := by decide
theorem test_read_dmaLen :
    oneStep blockS 0x00000000C00000000#66 = some (blockS, [.readData 0x9ABCDEF0#32], []) := by decide
theorem test_read_misaligned :
    oneStep blockS 0x00000000300000000#66 =
      some (blockS, [.readData 0x00000000#32], [⟨.unmappedRead, 0x00000003#32, none⟩]) := by decide
theorem test_read_high_offset :
    oneStep blockS 0x0FFFFFFFC00000000#66 =
      some (blockS, [.readData 0x00000000#32], [⟨.unmappedRead, 0xFFFFFFFC#32, none⟩]) := by decide

/-! ## Writes (sections 3.2 and 3.3) and reset (section 3.4) -/

theorem test_start_from_reset :
    oneStep Block.reset 0x10000000080000001#66 =
      some (⟨0x80000001#32, 0x00000001#32, 0x00000000#32, 0x00000000#32, true⟩, [.done],
        [⟨.ctrlWrite, 0x00000000#32, some 0x80000001#32⟩]) := by decide
theorem test_start_wins_over_reset :
    oneStep blockC 0x10000000000000003#66 =
      some (⟨0x00000003#32, 0x00000001#32, 0x80001000#32, 0x00000040#32, true⟩, [.done],
        [⟨.ctrlWrite, 0x00000000#32, some 0x00000003#32⟩]) := by decide
theorem test_reset_command :
    oneStep blockC 0x10000000080000002#66 =
      some (⟨0x80000002#32, 0x00000000#32, 0x80001000#32, 0x00000040#32, false⟩, [.done],
        [⟨.ctrlWrite, 0x00000000#32, some 0x80000002#32⟩]) := by decide
theorem test_nocmd_keeps_done :
    oneStep blockC 0x10000000000000004#66 =
      some (⟨0x00000004#32, 0x00000001#32, 0x80001000#32, 0x00000040#32, true⟩, [.done],
        [⟨.ctrlWrite, 0x00000000#32, some 0x00000004#32⟩]) := by decide
theorem test_status_write_does_not_clear :
    oneStep blockC 0x10000000400000001#66 =
      some (blockC, [.done], [⟨.statusWrite, 0x00000004#32, some 0x00000001#32⟩]) := by decide
theorem test_status_write_does_not_set :
    oneStep Block.reset 0x100000004FFFFFFFF#66 =
      some (Block.reset, [.done], [⟨.statusWrite, 0x00000004#32, some 0xFFFFFFFF#32⟩]) := by decide
theorem test_write_dmaAddr :
    oneStep Block.reset 0x10000000800000003#66 =
      some (⟨0x00000000#32, 0x00000000#32, 0x00000003#32, 0x00000000#32, false⟩, [.done],
        [⟨.dmaAddrWrite, 0x00000008#32, some 0x00000003#32⟩]) := by decide
theorem test_write_dmaLen :
    oneStep blockC 0x10000000C00000000#66 =
      some (⟨0x00000001#32, 0x00000001#32, 0x80001000#32, 0x00000000#32, true⟩, [.done],
        [⟨.dmaLenWrite, 0x0000000C#32, some 0x00000000#32⟩]) := by decide
theorem test_write_inside_ctrl_word :
    oneStep Block.reset 0x10000000100000001#66 =
      some (Block.reset, [.done], [⟨.unmappedWrite, 0x00000001#32, some 0x00000001#32⟩]) := by decide
theorem test_write_does_not_alias_ctrl :
    oneStep blockC 0x10000010000000002#66 =
      some (blockC, [.done], [⟨.unmappedWrite, 0x00000100#32, some 0x00000002#32⟩]) := by decide
theorem test_reset_operation :
    oneStep blockS 0x20000000000000000#66 = some (Block.reset, [.done], []) := by decide

/-! ## The boundary, the state machine and the platform (rules R35, R42, R43, R61) -/

theorem test_reserved_op_is_refused :
    refusalOf (Request.whole 0x30000000000000000#66) = some .reservedOp := by decide
theorem test_byte_access_is_refused :
    refusalOf ⟨1, 0x10000000000000001#66⟩ = some .accessWidth := by decide
theorem test_reset_has_no_width : refusalOf ⟨1, 0x20000000000000000#66⟩ = none := by decide
theorem test_start_keeps_reserved_status_bits : startStatus 0xFFFFFFFE#32 = 0xFFFFFFFD#32 := by decide
theorem test_fsm_of_busy_alone : fsmOf 0x00000002#32 = none := by decide
theorem test_big_endian_lane_0 : byteLane .big 0x12345678#32 0 = 0x12#8 := by decide
theorem test_little_endian_lane_0 : byteLane .little 0x12345678#32 0 = 0x78#8 := by decide

/-- A word stored where the step fetches is the next instruction that runs. -/
theorem test_withFetchWord_runs :
    (match step (State.reset.withFetchWord 72 0x10000000800000007) with
      | .next t => t.block.dmaAddr
      | .fault _ => 0x00000000#32
      | .refused _ => 0x00000000#32) = 0x00000007#32 := by decide

/-! ## The notations (rules R59, R69) -/

theorem test_script_register_name :
    readScript ['W', 'R', ' ', 'C', 'T', 'R', 'L', ',', ' ', '0', 'x', '2', ' ', ';', ' ', 'R', 'S', 'T'] =
      some (.busWrite 0x00000000#32 0x00000002#32) := by decide
theorem test_script_malformed : readScript ['R', 'D', ' ', '4'] = none := by decide
theorem test_txn_word_text :
    writeTxnWord 0x100000008DEADBEEF#66 =
      ['0', 'x', '1', '_', '0', '0', '0', '0', '0', '0', '0', '8', '_',
        'D', 'E', 'A', 'D', 'B', 'E', 'E', 'F'] := by decide

/-! ## Values that meet the statements' hypotheses -/

/-- The machine at `C` with one whole-word request to take, and one behind it that it does not reach. -/
def queued (T : TxnWord) : State := (machineOf blockC).withPending [Request.whole T, Request.whole 0#66]

/-- What `queued T` has behind its first request. -/
def behind : List Request := [Request.whole 0#66]

/-- A history with a write to each DMA register, a START, a read and an unmapped write among them. -/
def sampleHistory : List Instr :=
  [.writeDmaAddr 0x00000007#32, .readStatus, .writeCtrlStart 0x00000003#32,
    .writeUnmapped 0x00000010#32 0x00000001#32, .writeDmaLen 0xFFFFFFFF#32]

theorem witness_DecodeOfEncodeIsIdentity :
    (Instr.writeCtrlReset 0xFFFFFFFE#32).wf = true ∧ (Instr.readUnmapped 0x00000010#32).wf = true := by decide

theorem witness_EncodeOfDecodeIsCanonical : decode 0x2123456789ABCDEF0#66 = .ok .reset := by rfl

theorem witness_NoTwoPlainRowsMatchOneWord :
    Row.isDefault .writeCtrlStart = false ∧
      Row.matchesWord .writeCtrlStart 0x10000000000000003#66 = true := by decide

/-- The first and the last unmapped offset. -/
theorem witness_UnmappedReadAnswersZero :
    decodeOffset 0x00000001#32 = .unmapped ∧ decodeOffset 0xFFFFFFFF#32 = .unmapped := by decide

/-- The first offset past the map, and the last aligned one. -/
theorem witness_UnmappedWriteChangesNothing :
    decodeOffset 0x00000010#32 = .unmapped ∧ decodeOffset 0xFFFFFFFC#32 = .unmapped := by decide

/-- The clause under rule R23 included, at both values that rule allows. -/
theorem witness_StartCommandSetsDone :
    commandOf 0x00000003#32 = .start ∧ commandOf 0xFFFFFFFF#32 = .start ∧
      (machineOf blockC).block.StatusLegal ∧ State.reset.block.StatusLegal := by decide

theorem witness_ResetCommandClearsStatusOnly :
    commandOf 0x00000002#32 = .reset ∧ commandOf 0xFFFFFFFE#32 = .reset := by decide

theorem witness_PlainCtrlWriteStoresOnly :
    commandOf 0x00000000#32 = .unrecognized ∧ commandOf 0xFFFFFFFC#32 = .unrecognized := by decide

theorem witness_StepRunsDecodedInstruction :
    (queued 0x10000000000000003#66).pending = Request.whole 0x10000000000000003#66 :: behind ∧
      decoded 0x10000000000000003#66 = some (.writeCtrlStart 0x00000003#32) ∧
      (Instr.writeCtrlStart 0x00000003#32).wf = true := by decide

theorem witness_StepWithoutRequestChangesNothing : (machineOf blockC).pending = [] := by decide

/-- A request for each of the two refusals, with the nearest widths on both sides of a whole word, and requests
that have neither. -/
theorem witness_RefusalsAreExactlyTheBoundarys :
    (queued 0x30000000000000000#66).pending = Request.whole 0x30000000000000000#66 :: behind ∧
      refusalOf (Request.whole 0x30000000000000000#66) = some .reservedOp ∧
      refusalOf ⟨3, 0x00000000000000000#66⟩ = some .accessWidth ∧
      refusalOf ⟨5, 0x10000000000000001#66⟩ = some .accessWidth ∧
      refusalOf ⟨4, 0x10000000000000001#66⟩ = none ∧ refusalOf ⟨3, 0x20000000000000000#66⟩ = none := by decide

/-- A word for each of the two clauses on the response. -/
theorem witness_EveryTransactionCompletesWithItsResponse :
    (queued 0x00000000400000000#66).pending = Request.whole 0x00000000400000000#66 :: behind ∧
      opField 0x00000000400000000#66 ≠ 0b11#2 ∧ opField 0x00000000400000000#66 = 0b00#2 ∧
      (queued 0x20000000000000000#66).pending = Request.whole 0x20000000000000000#66 :: behind ∧
      opField 0x20000000000000000#66 ≠ 0b11#2 ∧ opField 0x20000000000000000#66 ≠ 0b00#2 := by decide

/-- The word is the one the layout of rule R59 gives for the highest offset of the map. -/
theorem witness_BusReadAnswersDecodedRegister :
    (queued 0x00000000C00000000#66).pending =
      Request.whole (packWord opBusRead 0x0000000C#32 0x00000000#32) :: behind := by decide

/-- A write to CTRL leaves the DMA registers, and a write to DMA_LEN leaves the others: each clause has an offset. -/
theorem witness_BusWriteTouchesItsRegisterOnly :
    (queued 0x10000000000000002#66).pending =
        Request.whole (packWord opBusWrite 0x00000000#32 0x00000002#32) :: behind ∧
      decodeOffset 0x00000000#32 ≠ .mapped .dmaAddr ∧ decodeOffset 0x00000000#32 ≠ .mapped .dmaLen ∧
      (queued 0x10000000C00000002#66).pending =
        Request.whole (packWord opBusWrite 0x0000000C#32 0x00000002#32) :: behind ∧
      decodeOffset 0x0000000C#32 ≠ .mapped .ctrl := by decide

/-- The offset next above the map, read and written. -/
theorem witness_UnmappedOffsetsReachNoRegister :
    (0x00000010#32 : Word) ≠ 0x00000000#32 ∧ (0x00000010#32 : Word) ≠ 0x00000004#32 ∧
      (0x00000010#32 : Word) ≠ 0x00000008#32 ∧ (0x00000010#32 : Word) ≠ 0x0000000C#32 ∧
      (queued 0x00000001000000000#66).pending =
        Request.whole (packWord opBusRead 0x00000010#32 0x00000000#32) :: behind ∧
      (queued 0x100000010FFFFFFFF#66).pending =
        Request.whole (packWord opBusWrite 0x00000010#32 0xFFFFFFFF#32) :: behind := by decide

theorem witness_PriorCtrlDoesNotMatter :
    (queued 0x10000000000000002#66).pending =
      Request.whole (packWord opBusWrite 0x00000000#32 0x00000002#32) :: behind := by decide

/-- A state that is not the reset state, and a step from it that goes on. -/
theorem witness_StepKeepsStatusAndFlagInvariant :
    (machineOf blockC).block.Inv ∧ (oneStep blockC 0x10000000000000002#66).isSome = true := by decide

theorem witness_BusyIsNeverObserved :
    statusBusy (queued 0x00000000400000000#66).block.status = false ∧
      (oneStep blockC 0x00000000400000000#66).isSome = true ∧
      (queued 0x00000000400000000#66).pending =
        Request.whole (packWord opBusRead 0x00000004#32 0x00000000#32) :: behind := by decide

/-- A step that goes on and changes STATUS. -/
theorem witness_OnlyCommandsAndResetChangeStatus :
    ((oneStep blockC 0x10000000000000002#66).map fun p => p.1.status) = some 0x00000000#32 ∧
      blockC.status ≠ 0x00000000#32 := by decide

/-- Both states of the state machine occur, from a legal STATUS. -/
theorem witness_StateMachineFollowsTransitionTable :
    fsmOf (machineOf blockC).block.status = some .operationComplete ∧
      fsmOf State.reset.block.status = some .idle ∧ blockC.StatusLegal ∧ Block.reset.StatusLegal := by decide

theorem witness_StepRefinesTransactionFunction :
    (queued 0x100000008DEADBEEF#66).pending = Request.whole 0x100000008DEADBEEF#66 :: behind ∧
      (decodeTxn 0x100000008DEADBEEF#66).toOption = some (.busWrite 0x00000008#32 0xDEADBEEF#32) := by decide

/-- A stream of accepted requests, a `Reset()` of no width among them. -/
theorem witness_RunAnswersEveryRequest :
    ∀ r ∈ ((machineOf blockC).withPending
      [Request.whole 0x10000000000000003#66, ⟨0, 0x20000000000000000#66⟩]).pending, r.accepted = true := by decide

theorem witness_ReadAnswersMostRecentWrite :
    (machineOf blockC).block.Inv ∧ ∀ i ∈ sampleHistory, i.wf = true := by decide

theorem witness_DoneStaysSetUntilCleared :
    commandOf 0x00000001#32 = .start ∧ ∀ i ∈ sampleHistory, i.wf = true ∧ i.clearsDone = false := by decide

theorem witness_ReadsHaveNoSideEffect :
    Instr.isRead (.readUnmapped 0x00000010#32) = true ∧
      (oneStep blockC 0x00000001000000000#66).isSome = true ∧ ∀ i ∈ sampleHistory, i.wf = true := by decide

theorem witness_TransactionsAreIdempotent : (Instr.writeCtrlStart 0x00000003#32).wf = true := by decide

/-- A request pair for each of the two clauses. -/
theorem witness_NextReadSeesTheWrite :
    (Reg.dmaLen ≠ .status ∧
      ((machineOf blockC).withPending
        [Request.whole 0x10000000C00000100#66, Request.whole 0x00000000C00000000#66]).pending =
        Request.whole (packWord opBusWrite Reg.dmaLen.offset 0x00000100#32) ::
          Request.whole (packWord opBusRead Reg.dmaLen.offset 0x00000000#32) :: []) ∧
    (commandOf 0x00000002#32 = .reset ∧
      ((machineOf blockC).withPending
        [Request.whole 0x10000000000000002#66, Request.whole 0x00000000400000000#66]).pending =
        Request.whole (packWord opBusWrite 0x00000000#32 0x00000002#32) ::
          Request.whole (packWord opBusRead 0x00000004#32 0x00000000#32) :: []) := by decide

/-- A run that goes on and a run that is refused. -/
theorem witness_NothingDependsOnDiagnostics :
    (oneStep blockC 0x10000000000000001#66).isSome = true ∧
      refusalOf (Request.whole 0x30000000000000000#66) = some .reservedOp := by decide

theorem witness_DmaRegistersAreNotActedUpon :
    ∀ i ∈ sampleHistory, i.wf = true ∧ i ≠ .readDmaAddr ∧ i ≠ .readDmaLen := by decide

/-- Two blocks, one of which a system step moves. -/
theorem witness_BlocksShareNoState :
    (match stepAt 0 [queued 0x20000000000000000#66, machineOf blockS] with
      | .next sys => sys.map fun s => s.block
      | .fault _ => []
      | .refused _ => []) = [Block.reset, blockS] := by decide

theorem witness_SystemResetOrderDoesNotMatter : [0, 1].Perm [1, 0] := by decide

/-- Two masters, three requests delivered, one left over. -/
theorem witness_InterleavingKeepsEachMastersOrder :
    serialise [0, 1, 0] [[Request.whole 0#66, Request.whole 1#66], [Request.whole 2#66, Request.whole 3#66]] =
      some ([(0, Request.whole 0#66), (1, Request.whole 2#66), (0, Request.whole 1#66)],
        [[], [Request.whole 3#66]]) := by decide

/-- A lane and a bit of it, at the top of their ranges. -/
theorem witness_ByteLanesCarryTheWord : (7 : Nat) < 8 ∧ (byteLane .little 0x80000000#32 3).getLsbD 7 = true := by
  decide

/-- A platform, with the lowest and the highest address of its range, the addresses just outside it, and the first
unmapped offset of a longer range. -/
theorem witness_BusAddressesTranslateToOffsets :
    Platform.wf { periphBase := 0x40000000, periphSpan := 0x10 } = true ∧
      (0x0000000F#32).toNat < 0x10 ∧
      offsetOfAddr { periphBase := 0x40000000, periphSpan := 0x10 } 0x40000000 = some 0x00000000#32 ∧
      offsetOfAddr { periphBase := 0x40000000, periphSpan := 0x10 } 0x4000000F = some 0x0000000F#32 ∧
      offsetOfAddr { periphBase := 0x40000000, periphSpan := 0x10 } 0x40000010 = none ∧
      offsetOfAddr { periphBase := 0x40000000, periphSpan := 0x10 } 0x3FFFFFFF = none ∧
      Platform.wf { periphBase := 0x40000000, periphSpan := 0x20 } = true ∧
      offsetOfAddr { periphBase := 0x40000000, periphSpan := 0x20 } 0x40000010 = some 0x00000010#32 := by decide

/-- The platform the witnesses put the block on, in either byte order. -/
def platform (o : ByteOrder) : Platform := { periphBase := 0x40000000, periphSpan := 0x10, busByteOrder := o }

/-- The four bytes the witnesses write, lowest address first. -/
def sampleBytes : Lanes := ⟨0x78#8, 0x56#8, 0x34#8, 0x12#8⟩

/-- The word of four bytes, in both byte orders (rule R43 for little-endian, log entry 12 for big-endian). -/
theorem test_busWord :
    busWord (platform .little) sampleBytes = 0x12345678#32 ∧
      busWord (platform .big) sampleBytes = 0x78563412#32 := by decide

/-- Bits 15:8 of a word at DMA_ADDR stand at `PERIPH_BASE + 0x08 + 1` (rule R43), and nothing past its four bytes. -/
theorem test_busByte :
    busByte (platform .little) 0x00000008#32 0x12345678#32 0x40000009 = some 0x56#8 ∧
      busByte (platform .little) 0x00000008#32 0x12345678#32 0x4000000C = none := by decide

/-- The addresses at both ends of the four bytes, those just outside them, and a bit at the top of its range. -/
theorem witness_BusBytesStandAtTheirAddresses :
    (platform .little).busByteOrder = .little ∧ (7 : Nat) < 8 ∧
      busByte (platform .little) 0x00000008#32 0x80000078#32 0x40000008 = some 0x78#8 ∧
      busByte (platform .little) 0x00000008#32 0x80000078#32 0x4000000B = some 0x80#8 ∧
      busByte (platform .little) 0x00000008#32 0x80000078#32 0x40000007 = none ∧
      busByte (platform .little) 0x00000008#32 0x80000078#32 0x4000000C = none ∧
      busByte (platform .big) 0x00000008#32 0x80000078#32 0x40000008 = some 0x80#8 := by decide

theorem witness_BusBytesWrittenAreReadBack :
    (platform .big).wf = true ∧ Reg.dmaLen ≠ .status ∧ Reg.ctrl ≠ .status := by decide

/-- A history with both unmapped accesses in it. -/
theorem witness_UnmappedAccessesAreNotFatal :
    ∀ i ∈ Instr.readUnmapped 0x00000001#32 :: sampleHistory, i.wf = true := by decide

/-- An address of the block, for an access of a whole word and for the nearest widths on both sides of one. -/
theorem witness_WholeWordAccessesAreTransactions :
    offsetOfAddr (platform .little) (BusAccess.addr ⟨true, 0x40000008, 4, sampleBytes⟩) = some 0x00000008#32 ∧
      (BusAccess.bytes ⟨true, 0x40000008, 4, sampleBytes⟩) = 4 ∧
      offsetOfAddr (platform .little) (BusAccess.addr ⟨true, 0x40000008, 3, sampleBytes⟩) = some 0x00000008#32 ∧
      (BusAccess.bytes ⟨true, 0x40000008, 3, sampleBytes⟩) ≠ 4 ∧
      offsetOfAddr (platform .big) (BusAccess.addr ⟨false, 0x4000000F, 5, sampleBytes⟩) = some 0x0000000F#32 ∧
      (BusAccess.bytes ⟨false, 0x4000000F, 5, sampleBytes⟩) ≠ 4 := by decide

end Sys2Proof.Tests
end

/-! PROOFS. The family `10_state.md`: what can change STATUS, and that BUSY stays clear. First the facts about
the decoder and about STATUS, then the two statements. -/

namespace Sys2Proof

/-! ## Which words carry a transaction that writes STATUS -/

/-- What a word that decodes to a transaction is: its op says which transaction, and the transaction's fields are
the word's (rules R59, R66). -/
theorem decodeTxn_ok_cases {T : TxnWord} {x : Txn} (h : decodeTxn T = .ok x) :
    (opField T = opBusRead ∧ x = .busRead (offsetField T)) ∨
    (opField T = opBusWrite ∧ x = .busWrite (offsetField T) (wdataField T)) ∨
    (opField T = opReset ∧ x = .reset) := by
  unfold decodeTxn at h
  split at h
  case isTrue hop => exact .inl ⟨hop, (Except.ok.inj h).symm⟩
  case isFalse =>
    split at h
    case isTrue hop => exact .inr (.inl ⟨hop, (Except.ok.inj h).symm⟩)
    case isFalse =>
      split at h
      case isTrue hop => exact .inr (.inr ⟨hop, (Except.ok.inj h).symm⟩)
      case isFalse => cases h

/-- A word decodes to the row its transaction belongs to. -/
theorem decodeTxn_of_decode {T : TxnWord} {i : Instr} (h : decode T = .ok i) :
    ∃ x, decodeTxn T = .ok x ∧ i = classify x := by
  unfold decode at h
  cases hT : decodeTxn T with
  | ok x => exact ⟨x, rfl, by simpa [hT] using h.symm⟩
  | error e => simp [hT] at h

/-- No read writes STATUS, whatever its offset (rule R46). -/
@[simp] theorem writesStatus_classifyRead (offset : Word) : (classifyRead offset).writesStatus = false := by
  unfold classifyRead
  cases decodeOffset offset with
  | unmapped => rfl
  | mapped r => cases r <;> rfl

/-- A CTRL write writes STATUS only where it carries a command (rules R79 to R81). -/
theorem command_of_writesStatus {v : Word} (h : (classifyCtrlWrite v).writesStatus = true) :
    commandOf v = .start ∨ commandOf v = .reset := by
  unfold classifyCtrlWrite at h
  cases hc : commandOf v with
  | start => exact .inl rfl
  | reset => exact .inr rfl
  | unrecognized => simp [hc, Instr.writesStatus] at h

/-- The only writes that write STATUS are CTRL writes with a command: a write to STATUS itself does not (rules R20,
R82). -/
theorem ctrl_command_of_writesStatus {offset v : Word} (h : (classifyWrite offset v).writesStatus = true) :
    offset = Reg.ctrl.offset ∧ (commandOf v = .start ∨ commandOf v = .reset) := by
  unfold classifyWrite at h
  cases ho : decodeOffset offset with
  | unmapped => simp [ho, Instr.writesStatus] at h
  | mapped r =>
    cases r with
    | ctrl => exact ⟨offset_of_decode_mapped ho, command_of_writesStatus (by simpa [ho] using h)⟩
    | status => simp [ho, Instr.writesStatus] at h
    | dmaAddr => simp [ho, Instr.writesStatus] at h
    | dmaLen => simp [ho, Instr.writesStatus] at h

/-- The words whose transaction writes STATUS: a `Reset()`, or a write to CTRL with command `Start` or `Reset` (rule
R20). -/
theorem word_of_writesStatus {T : TxnWord} {i : Instr} (h : decode T = .ok i) (hw : i.writesStatus = true) :
    opField T = opReset ∨
      (opField T = opBusWrite ∧ offsetField T = Reg.ctrl.offset ∧
        (commandOf (wdataField T) = .start ∨ commandOf (wdataField T) = .reset)) := by
  obtain ⟨x, hx, rfl⟩ := decodeTxn_of_decode h
  obtain ⟨-, rfl⟩ | ⟨hop, rfl⟩ | ⟨hop, rfl⟩ := decodeTxn_ok_cases hx
  · simp [classify] at hw
  · exact .inr ⟨hop, ctrl_command_of_writesStatus hw⟩
  · exact .inl hop

/-- The word of a `BusRead` of STATUS decodes to its row, whatever its ignored field holds (rules R60, R72). -/
theorem decode_readStatus (v : Word) : decode (packWord opBusRead Reg.status.offset v) = .ok .readStatus := by
  simp [decode, classify, classifyRead]

end Sys2Proof

namespace Sys2Proof.Machine

/-! ## What an instruction leaves in STATUS -/

/-- What an instruction leaves in STATUS: a START's value, zero, or what it held (rules R20, R79, R80, R88). -/
theorem exec_status_cases {i : Instr} {s t : State} (h : exec i s = .next t) :
    (i.writesStatus = true ∧ t.block.status = startStatus s.block.status) ∨
    (i.writesStatus = true ∧ t.block.status = clearedStatus) ∨
    (i.writesStatus = false ∧ t.block.status = s.block.status) := by
  cases i with
  | writeCtrlStart v => cases h; exact .inl ⟨rfl, rfl⟩
  | writeCtrlReset v => cases h; exact .inr (.inl ⟨rfl, rfl⟩)
  | reset => cases h; exact .inr (.inl ⟨rfl, rfl⟩)
  | _ => cases h; exact .inr (.inr ⟨rfl, rfl⟩)

/-- BUSY is bit 1 of STATUS (rule R19). -/
theorem statusBusy_eq_getLsbD (status : Word) : statusBusy status = status.getLsbD 1 := by
  have hb : busyMask = BitVec.twoPow 32 1 := rfl
  rw [statusBusy, hb, BitVec.and_twoPow]
  cases status.getLsbD 1 <;> decide

/-- A START leaves BUSY clear, whatever STATUS held (rule R79). -/
@[simp] theorem statusBusy_startStatus (status : Word) : statusBusy (startStatus status) = false := by
  rw [statusBusy_eq_getLsbD, getLsbD_startStatus]
  rfl

@[simp] theorem statusBusy_clearedStatus : statusBusy clearedStatus = false := by decide

/-- No instruction sets BUSY (rule R22). -/
theorem exec_keeps_busy_clear {i : Instr} {s t : State} (h : exec i s = .next t)
    (hs : statusBusy s.block.status = false) : statusBusy t.block.status = false := by
  obtain ⟨-, ht⟩ | ⟨-, ht⟩ | ⟨-, ht⟩ := exec_status_cases h
  · rw [ht, statusBusy_startStatus]
  · rw [ht, statusBusy_clearedStatus]
  · rw [ht, hs]

/-- No step sets BUSY (rule R22). -/
theorem step_keeps_busy_clear {s t : State} (h : step s = .next t)
    (hs : statusBusy s.block.status = false) : statusBusy t.block.status = false := by
  obtain ⟨-, rfl⟩ | ⟨r, rest, i, -, -, hexec⟩ := step_next_cases h
  · exact hs
  · exact exec_keeps_busy_clear hexec hs

/-- A step that takes a `BusRead` of STATUS answers STATUS (rule R74). -/
theorem step_readStatus_responses {s t : State} {rest : List Request} {v : Word} (h : step s = .next t)
    (hp : s.pending = Request.whole (packWord opBusRead Reg.status.offset v) :: rest) :
    t.responses = s.responses ++ [.readData s.block.status] := by
  rw [step_of_accepted hp (acceptRequest_of_decode (decode_readStatus v))] at h
  cases h
  rfl

/-- A step that changes STATUS ran an instruction that writes it, carried by the oldest request. -/
theorem step_changes_status {s t : State} (h : step s = .next t) (hne : t.block.status ≠ s.block.status) :
    ∃ r rest i, s.pending = r :: rest ∧ decode r.word = .ok i ∧ i.writesStatus = true := by
  obtain ⟨-, rfl⟩ | ⟨r, rest, i, hp, hr, hexec⟩ := step_next_cases h
  · exact absurd rfl hne
  · obtain ⟨hdec, -⟩ := decode_of_accepted hr
    obtain ⟨hw, -⟩ | ⟨hw, -⟩ | ⟨-, ht⟩ := exec_status_cases hexec
    · exact ⟨r, rest, i, hp, hdec, hw⟩
    · exact ⟨r, rest, i, hp, hdec, hw⟩
    · exact absurd ht hne

/-! ## The statements -/

/-- Settles O30: no step sets BUSY, and a read of STATUS answers the register itself. -/
theorem busyIsNeverObserved : Obligations.BusyIsNeverObserved := by
  unfold Obligations.BusyIsNeverObserved
  refine ⟨by decide, fun s t hs h => ⟨step_keeps_busy_clear h hs, fun rest v hp => ?_⟩⟩
  exact ⟨s.block.status, step_readStatus_responses h hp, hs⟩

/-- Settles O31: only an instruction that writes STATUS can change it, and only the words of rule R20 carry one. -/
theorem onlyCommandsAndResetChangeStatus : Obligations.OnlyCommandsAndResetChangeStatus := by
  unfold Obligations.OnlyCommandsAndResetChangeStatus
  intro s t h hne
  obtain ⟨r, rest, i, hp, hdec, hw⟩ := step_changes_status h hne
  exact ⟨r, rest, hp, word_of_writesStatus hdec hw⟩

end Sys2Proof.Machine

/-! PROOFS. The family `20_memory.md`: a read has no side effect, in one transaction and in a stream of any length.
First that the word of a well-formed instruction carries that instruction, then how a stream of such words runs, then
the statement. -/

namespace Sys2Proof

/-! ## The word of an instruction carries the instruction -/

/-- A `BusRead` word decodes by its offset alone (rules R60, R66). -/
theorem decode_busRead (offset v : Word) : decode (packWord opBusRead offset v) = .ok (classifyRead offset) := by
  simp [decode, classify]

/-- A `BusWrite` word decodes by its offset and its value (rule R66). -/
theorem decode_busWrite (offset v : Word) :
    decode (packWord opBusWrite offset v) = .ok (classifyWrite offset v) := by
  simp [decode, classify]

/-- A `Reset()` word decodes to the reset operation, whatever its ignored fields hold (rules R60, R66). -/
theorem decode_resetWord (offset v : Word) : decode (packWord opReset offset v) = .ok .reset := by
  simp [decode, classify]

/-- A read at a register's offset is the read of that register (rules R73 to R76). -/
theorem classifyRead_regOffset (r : Reg) : classifyRead r.offset = r.readInstr := by
  unfold classifyRead
  rw [decodeOffset_regOffset]
  cases r <;> rfl

theorem classifyRead_of_unmapped {offset : Word} (h : decodeOffset offset = .unmapped) :
    classifyRead offset = .readUnmapped offset := by
  simp [classifyRead, h]

/-- A write at the offset of CTRL is told apart by its command (rule R66). -/
theorem classifyWrite_ctrl (v : Word) : classifyWrite Reg.ctrl.offset v = classifyCtrlWrite v := by
  simp [classifyWrite]

theorem classifyWrite_status (v : Word) : classifyWrite Reg.status.offset v = .writeStatus v := by
  simp [classifyWrite]

theorem classifyWrite_dmaAddr (v : Word) : classifyWrite Reg.dmaAddr.offset v = .writeDmaAddr v := by
  simp [classifyWrite]

theorem classifyWrite_dmaLen (v : Word) : classifyWrite Reg.dmaLen.offset v = .writeDmaLen v := by
  simp [classifyWrite]

theorem classifyWrite_of_unmapped {offset : Word} (v : Word) (h : decodeOffset offset = .unmapped) :
    classifyWrite offset v = .writeUnmapped offset v := by
  simp [classifyWrite, h]

/-- Decoding the word of a well-formed instruction gives the instruction back: its operands meet the condition of its
row, so the decode order of rule R66 comes to that row. -/
theorem decode_encode {i : Instr} (h : i.wf = true) : decode (encode i) = .ok i := by
  cases i with
  | readCtrl => rw [encode, decode_busRead, classifyRead_regOffset]; rfl
  | readStatus => rw [encode, decode_busRead, classifyRead_regOffset]; rfl
  | readDmaAddr => rw [encode, decode_busRead, classifyRead_regOffset]; rfl
  | readDmaLen => rw [encode, decode_busRead, classifyRead_regOffset]; rfl
  | readUnmapped offset => rw [encode, decode_busRead, classifyRead_of_unmapped (eq_of_beq h)]
  | writeCtrlStart v =>
    rw [encode, decode_busWrite, classifyWrite_ctrl, classifyCtrlWrite, show commandOf v = .start from eq_of_beq h]
  | writeCtrlReset v =>
    rw [encode, decode_busWrite, classifyWrite_ctrl, classifyCtrlWrite, show commandOf v = .reset from eq_of_beq h]
  | writeCtrlNocmd v =>
    rw [encode, decode_busWrite, classifyWrite_ctrl, classifyCtrlWrite,
      show commandOf v = .unrecognized from eq_of_beq h]
  | writeStatus v => rw [encode, decode_busWrite, classifyWrite_status]
  | writeDmaAddr v => rw [encode, decode_busWrite, classifyWrite_dmaAddr]
  | writeDmaLen v => rw [encode, decode_busWrite, classifyWrite_dmaLen]
  | writeUnmapped offset v => rw [encode, decode_busWrite, classifyWrite_of_unmapped v (eq_of_beq h)]
  | reset => rw [encode, decode_resetWord]

end Sys2Proof

namespace Sys2Proof.Machine

/-! ## A stream of instructions, one at a time -/

/-- The boundary accepts the request of a well-formed instruction as that instruction. -/
theorem acceptRequest_requestOf {i : Instr} (h : i.wf = true) : acceptRequest (requestOf i) = .ok i :=
  acceptRequest_of_decode (decode_encode h)

/-- The requests still to come make no difference to an instruction. -/
theorem exec_withPending {i : Instr} {s t : State} (rest : List Request) (h : exec i s = .next t) :
    exec i (s.withPending rest) = .next (t.withPending rest) := by
  cases i <;> (cases h; rfl)

/-- A step on a stream that begins with a well-formed instruction runs it and leaves the rest of the stream. -/
theorem step_requestOf {i : Instr} {s t : State} (rest : List Request) (hwf : i.wf = true)
    (h : exec i s = .next t) :
    step (s.withPending (requestOf i :: rest)) = .next (t.withPending rest) := by
  rw [step_of_accepted (State.withPending_pending _ _) (acceptRequest_requestOf hwf), State.withPending_withPending]
  exact exec_withPending rest h

/-- A run on a stream that begins with a well-formed instruction goes on from where the instruction led. -/
theorem runSteps_requestOf {i : Instr} {s t : State} (k : Nat) (rest : List Request) (hwf : i.wf = true)
    (h : exec i s = .next t) :
    runSteps (k + 1) (s.withPending (requestOf i :: rest)) = runSteps k (t.withPending rest) :=
  runSteps_of_next k (step_requestOf rest hwf h)

/-! ## What an instruction does to the block -/

/-- A read changes none of the five elements (rule R46). -/
theorem exec_block_of_isRead {i : Instr} {s t : State} (hr : i.isRead = true) (h : exec i s = .next t) :
    t.block = s.block := by
  cases i with
  | readCtrl | readStatus | readDmaAddr | readDmaLen | readUnmapped _ => cases h; rfl
  | _ => simp [Instr.isRead] at hr

/-- The block an instruction leaves depends on the block it found and on nothing else of the machine (rule R9). -/
theorem exec_block_congr {i : Instr} {s s' t t' : State} (hb : s.block = s'.block) (h : exec i s = .next t)
    (h' : exec i s' = .next t') : t.block = t'.block := by
  cases i with
  | readCtrl | readStatus | readDmaAddr | readDmaLen | readUnmapped _ | writeStatus _ | writeUnmapped _ _ =>
    cases h; cases h'; exact hb
  | writeCtrlStart _ | writeCtrlReset _ | writeCtrlNocmd _ | writeDmaAddr _ | writeDmaLen _ =>
    cases h; cases h'; simp [hb]
  | reset => cases h; cases h'; rfl

/-! ## A stream with its reads and without them -/

/-- From two states with one block, a history and the history without its reads both run to their end and leave one
block. At a read only the first run steps, and it keeps its block; at any other instruction both step alike. -/
theorem runs_with_and_without_reads_agree (history : List Instr) (hwf : ∀ i ∈ history, i.wf = true)
    {s s' : State} (hb : s.block = s'.block) :
    ∃ t u, runSteps history.length (s.withPending (history.map requestOf)) = .next t ∧
      runSteps (history.filter fun i => !i.isRead).length
        (s'.withPending ((history.filter fun i => !i.isRead).map requestOf)) = .next u ∧
      t.block = u.block := by
  induction history generalizing s s' with
  | nil => exact ⟨_, _, rfl, rfl, hb⟩
  | cons i history ih =>
    obtain ⟨hi, hrest⟩ := List.forall_mem_cons.mp hwf
    obtain ⟨s₁, hs⟩ := exec_completes i s
    rw [List.length_cons, List.map_cons, runSteps_requestOf _ _ hi hs]
    cases hr : i.isRead with
    | true =>
      rw [List.filter_cons_of_neg (by simp [hr])]
      exact ih hrest ((exec_block_of_isRead hr hs).trans hb)
    | false =>
      obtain ⟨s₁', hs'⟩ := exec_completes i s'
      rw [List.filter_cons_of_pos (by simp [hr]), List.length_cons, List.map_cons, runSteps_requestOf _ _ hi hs']
      exact ih hrest (exec_block_congr hb hs hs')

/-! ## The statement -/

/-- Settles O37: a read keeps the block, and so a history and the history without its reads, run from one state, leave
one block. -/
theorem readsHaveNoSideEffect : Obligations.ReadsHaveNoSideEffect := by
  unfold Obligations.ReadsHaveNoSideEffect
  exact ⟨fun _ _ _ hr h => exec_block_of_isRead hr h,
    fun _ history hwf => runs_with_and_without_reads_agree history hwf rfl⟩

end Sys2Proof.Machine

/-! PROOFS. The family `30_encoding.md`: the offset decode, the command decode, and the data a `BusRead` answers. Each
decode function is first said as an `↔` per outcome, and the statements are put together from those. -/

namespace Sys2Proof

/-! ## The offset decode (rule R62) -/

/-- An offset decodes to a register exactly when all its bits are those of the register's offset (rules R40, R62). -/
theorem decodeOffset_eq_mapped_iff {offset : Word} {r : Reg} : decodeOffset offset = .mapped r ↔ offset = r.offset :=
  ⟨offset_of_decode_mapped, fun h => h ▸ decodeOffset_regOffset r⟩

/-- An offset is unmapped exactly when it is the offset of no register (rules R40, R62). -/
theorem decodeOffset_eq_unmapped_iff {offset : Word} :
    decodeOffset offset = .unmapped ↔ ∀ r : Reg, offset ≠ r.offset := by
  constructor
  · rintro h r rfl
    simp at h
  · intro h
    cases hd : decodeOffset offset with
    | unmapped => rfl
    | mapped r => exact absurd (offset_of_decode_mapped hd) (h r)

/-- The map has these four registers and no more (rule R16). -/
theorem Reg.forall_iff {p : Reg → Prop} : (∀ r, p r) ↔ p .ctrl ∧ p .status ∧ p .dmaAddr ∧ p .dmaLen := by
  constructor
  · exact fun h => ⟨h .ctrl, h .status, h .dmaAddr, h .dmaLen⟩
  · rintro ⟨hctrl, hstatus, haddr, hlen⟩ (_ | _ | _ | _)
    exacts [hctrl, hstatus, haddr, hlen]

/-! ## The command decode (rule R63) -/

theorem commandOf_eq_start_iff {v : Word} : commandOf v = .start ↔ v.getLsbD startBit = true := by
  obtain h | h | h := commandOf_cases v <;> simp [h]

theorem commandOf_eq_reset_iff {v : Word} :
    commandOf v = .reset ↔ v.getLsbD startBit = false ∧ v.getLsbD resetBit = true := by
  obtain h | h | h := commandOf_cases v <;> simp [h]

theorem commandOf_eq_unrecognized_iff {v : Word} :
    commandOf v = .unrecognized ↔ v.getLsbD startBit = false ∧ v.getLsbD resetBit = false := by
  obtain h | h | h := commandOf_cases v <;> simp [h]

/-- The command depends on the START and the RESET bit and on no other (rule R63). -/
theorem commandOf_congr {v v' : Word} (h0 : v'.getLsbD startBit = v.getLsbD startBit)
    (h1 : v'.getLsbD resetBit = v.getLsbD resetBit) : commandOf v' = commandOf v := by
  rw [commandOf, commandOf, h0, h1]

/-- Two words that agree under a mask agree at every bit the mask has set. -/
theorem getLsbD_eq_of_and_eq {v v' mask : Word} (h : v' &&& mask = v &&& mask) {k : Nat}
    (hk : mask.getLsbD k = true) : v'.getLsbD k = v.getLsbD k := by
  have hbit := congrArg (·.getLsbD k) h
  simpa [hk] using hbit

end Sys2Proof

namespace Sys2Proof.Machine

/-! ## The data of a `BusRead` (rule R65) -/

/-- The data of a read, by the offset itself (rules R62, R65). -/
theorem rdataOf_decodeOffset (b : Block) (offset : Word) :
    rdataOf b (decodeOffset offset) =
      if offset = Reg.ctrl.offset then b.ctrl
      else if offset = Reg.status.offset then b.status
      else if offset = Reg.dmaAddr.offset then b.dmaAddr
      else if offset = Reg.dmaLen.offset then b.dmaLen
      else 0x00000000#32 := by
  cases hd : decodeOffset offset with
  | unmapped =>
    have hne := decodeOffset_eq_unmapped_iff.mp hd
    simp [hne]
  | mapped r =>
    obtain rfl := offset_of_decode_mapped hd
    cases r <;> rfl

/-- The read an offset selects completes with the data of what the offset decodes to, and changes no state element
(rules R46, R65). -/
theorem classifyRead_completesWith (offset : Word) (s : State) :
    CompletesWith (classifyRead offset) s s.block (.readData (rdataOf s.block (decodeOffset offset))) := by
  unfold classifyRead
  cases decodeOffset offset with
  | unmapped => exact ⟨_, rfl, rfl⟩
  | mapped r => cases r <;> exact ⟨_, rfl, rfl⟩

/-- A step that takes a `BusRead` answers the data of what its offset decodes to, whatever the ignored field of its
word holds, and keeps the block (rules R60, R65). -/
theorem step_busRead {s : State} {rest : List Request} {offset v : Word}
    (hp : s.pending = Request.whole (packWord opBusRead offset v) :: rest) :
    ∃ t, step s = .next t ∧ t.block = s.block ∧ t.pending = rest ∧
      t.responses = s.responses ++ [.readData (rdataOf s.block (decodeOffset offset))] := by
  obtain ⟨t, hexec, hfun⟩ := classifyRead_completesWith offset (s.withPending rest)
  obtain ⟨hblock, hpending, hresponses⟩ : t.block = _ ∧ t.pending = _ ∧ t.responses = _ := by
    simpa [State.functional] using hfun
  have hstep := step_of_accepted hp (acceptRequest_of_decode (decode_busRead offset v))
  exact ⟨t, hstep.trans hexec, hblock, hpending, hresponses⟩

/-! ## The statements -/

/-- Settles O6: each outcome of the offset decode by the offsets that have it, register by register. -/
theorem offsetDecodeComparesAllBits : Obligations.OffsetDecodeComparesAllBits := by
  unfold Obligations.OffsetDecodeComparesAllBits
  intro offset
  exact ⟨decodeOffset_eq_mapped_iff, decodeOffset_eq_mapped_iff, decodeOffset_eq_mapped_iff,
    decodeOffset_eq_mapped_iff, decodeOffset_eq_unmapped_iff.trans Reg.forall_iff⟩

/-- Settles O7: each command by its bits, and the mask 0x3 holds both of the bits that matter. -/
theorem commandDecodeHasStartPriority : Obligations.CommandDecodeHasStartPriority := by
  unfold Obligations.CommandDecodeHasStartPriority
  intro v
  refine ⟨commandOf_eq_start_iff, commandOf_eq_reset_iff, commandOf_eq_unrecognized_iff, fun v' h => ?_⟩
  exact commandOf_congr (getLsbD_eq_of_and_eq h (by decide)) (getLsbD_eq_of_and_eq h (by decide))

/-- Settles O24: a step on a `BusRead` answers by the offset's decode, and the decode is the chain of rule R62. -/
theorem busReadAnswersDecodedRegister : Obligations.BusReadAnswersDecodedRegister := by
  unfold Obligations.BusReadAnswersDecodedRegister
  intro s rest offset v hp
  obtain ⟨t, hstep, hblock, hpending, hresponses⟩ := step_busRead hp
  rw [rdataOf_decodeOffset] at hresponses
  exact ⟨t, hstep, hblock, hpending, hresponses⟩

end Sys2Proof.Machine

/-! PROOFS. The family `41_bus_write.md`: what a `BusWrite` reaches. A write is run once, against the `write`
operation of rule R2 (`Block.writeOp`). What it leaves unchanged is then read off that operation. -/

namespace Sys2Proof.Machine

/-! ## What the `write` operation reaches (rule R78) -/

/-- No command reaches DMA_ADDR: the RESET command is not the reset operation (rule R80). -/
@[simp] theorem Block.command_dmaAddr (b : Block) (c : Command) : (b.command c).dmaAddr = b.dmaAddr := by
  cases c <;> rfl

/-- No command reaches DMA_LEN (rule R80). -/
@[simp] theorem Block.command_dmaLen (b : Block) (c : Command) : (b.command c).dmaLen = b.dmaLen := by
  cases c <;> rfl

/-- What a write leaves of the block: a write to CTRL stores and runs its command, a write to a DMA register stores,
and any other write leaves the block as it was (rules R79 to R85). -/
theorem Block.writeOp_cases (b : Block) (offset v : Word) :
    (decodeOffset offset = .mapped .ctrl ∧ (b.writeOp offset v).1 = (b.set .ctrl v).command (commandOf v)) ∨
    (decodeOffset offset = .mapped .dmaAddr ∧ (b.writeOp offset v).1 = b.set .dmaAddr v) ∨
    (decodeOffset offset = .mapped .dmaLen ∧ (b.writeOp offset v).1 = b.set .dmaLen v) ∨
    ((decodeOffset offset = .mapped .status ∨ decodeOffset offset = .unmapped) ∧ (b.writeOp offset v).1 = b) := by
  unfold Block.writeOp
  cases decodeOffset offset with
  | unmapped => exact .inr (.inr (.inr ⟨.inr rfl, rfl⟩))
  | mapped r =>
    cases r with
    | ctrl => exact .inl ⟨rfl, rfl⟩
    | status => exact .inr (.inr (.inr ⟨.inl rfl, rfl⟩))
    | dmaAddr => exact .inr (.inl ⟨rfl, rfl⟩)
    | dmaLen => exact .inr (.inr (.inl ⟨rfl, rfl⟩))

theorem Block.writeOp_dmaAddr_of_ne (b : Block) {offset : Word} (v : Word)
    (h : decodeOffset offset ≠ .mapped .dmaAddr) : (b.writeOp offset v).1.dmaAddr = b.dmaAddr := by
  obtain ⟨-, hb⟩ | ⟨hd, -⟩ | ⟨-, hb⟩ | ⟨-, hb⟩ := b.writeOp_cases offset v
  · simp [hb]
  · exact absurd hd h
  · simp [hb]
  · rw [hb]

theorem Block.writeOp_dmaLen_of_ne (b : Block) {offset : Word} (v : Word)
    (h : decodeOffset offset ≠ .mapped .dmaLen) : (b.writeOp offset v).1.dmaLen = b.dmaLen := by
  obtain ⟨-, hb⟩ | ⟨-, hb⟩ | ⟨hd, -⟩ | ⟨-, hb⟩ := b.writeOp_cases offset v
  · simp [hb]
  · simp [hb]
  · exact absurd hd h
  · rw [hb]

/-- Only a write to CTRL reaches CTRL, STATUS or the flag: a write to STATUS does not (rules R78, R82). -/
theorem Block.writeOp_control_of_ne (b : Block) {offset : Word} (v : Word)
    (h : decodeOffset offset ≠ .mapped .ctrl) :
    (b.writeOp offset v).1.ctrl = b.ctrl ∧ (b.writeOp offset v).1.status = b.status ∧
      (b.writeOp offset v).1.operationActive = b.operationActive := by
  obtain ⟨hd, -⟩ | ⟨-, hb⟩ | ⟨-, hb⟩ | ⟨-, hb⟩ := b.writeOp_cases offset v
  · exact absurd hd h
  · simp [hb]
  · simp [hb]
  · simp [hb]

/-! ## A step that takes a `BusWrite` -/

/-- A CTRL write completes with `Done`, its value stored and its command run (rules R79 to R81, R87). -/
theorem classifyCtrlWrite_completesWith (v : Word) (s : State) :
    CompletesWith (classifyCtrlWrite v) s ((s.block.set .ctrl v).command (commandOf v)) .done := by
  unfold classifyCtrlWrite
  cases commandOf v <;> exact ⟨_, rfl, rfl⟩

/-- The write an offset selects completes with `Done` and does to the block what `write(offset, v)` does (rules R78 to
R85). -/
theorem classifyWrite_completesWith (offset v : Word) (s : State) :
    CompletesWith (classifyWrite offset v) s (s.block.writeOp offset v).1 .done := by
  unfold classifyWrite Block.writeOp
  cases decodeOffset offset with
  | unmapped => exact ⟨_, rfl, rfl⟩
  | mapped r =>
    cases r with
    | ctrl => exact classifyCtrlWrite_completesWith v s
    | status | dmaAddr | dmaLen => exact ⟨_, rfl, rfl⟩

/-- A step on a whole-word request takes the request and completes as the instruction it carries does. -/
theorem step_of_completesWith {s : State} {T : TxnWord} {rest : List Request} {i : Instr} {b : Block} {r : Resp}
    (hp : s.pending = Request.whole T :: rest) (hdec : decode T = .ok i)
    (hi : CompletesWith i (s.withPending rest) b r) :
    ∃ t, step s = .next t ∧ t.block = b ∧ t.pending = rest ∧ t.responses = s.responses ++ [r] := by
  obtain ⟨t, hexec, hfun⟩ := hi
  obtain ⟨hblock, hpending, hresponses⟩ : t.block = _ ∧ t.pending = _ ∧ t.responses = _ := by
    simpa [State.functional] using hfun
  exact ⟨t, (step_of_accepted hp (acceptRequest_of_decode hdec)).trans hexec, hblock, hpending, hresponses⟩

/-- A step that takes a `BusWrite` answers `Done` and does `write(offset, v)` to the block (rule R78). -/
theorem step_busWrite {s : State} {rest : List Request} {offset v : Word}
    (hp : s.pending = Request.whole (packWord opBusWrite offset v) :: rest) :
    ∃ t, step s = .next t ∧ t.block = (s.block.writeOp offset v).1 ∧ t.pending = rest ∧
      t.responses = s.responses ++ [.done] :=
  step_of_completesWith hp (decode_busWrite offset v) (classifyWrite_completesWith offset v (s.withPending rest))

/-! ## The statement -/

/-- Settles O25: a step on a `BusWrite` is the `write` operation, and that reaches no register but the one its offset
decodes to, with STATUS and the flag reached from CTRL alone. -/
theorem busWriteTouchesItsRegisterOnly : Obligations.BusWriteTouchesItsRegisterOnly := by
  unfold Obligations.BusWriteTouchesItsRegisterOnly
  intro s rest offset v hp
  obtain ⟨t, hstep, hblock, hpending, hresponses⟩ := step_busWrite hp
  refine ⟨t, hstep, hpending, hresponses, ?_⟩
  rw [hblock]
  exact ⟨s.block.writeOp_dmaAddr_of_ne v, s.block.writeOp_dmaLen_of_ne v, s.block.writeOp_control_of_ne v⟩

end Sys2Proof.Machine

/-! PROOFS. The family `60_exceptions.md`: what does not reach what. First that the diagnostic output reaches nothing of
the functional contract: two machines that agree on that contract step alike, so they run alike. Then that one block of
a system reaches no other. -/

namespace Sys2Proof.Machine

/-! ## The diagnostic output (rule R95) -/

/-- Agreement on the functional contract, field by field. -/
theorem State.functional_eq_iff {s s' : State} :
    s'.functional = s.functional ↔
      s'.block = s.block ∧ s'.pending = s.pending ∧ s'.responses = s.responses := by
  simp [State.functional]

/-- Taking a request keeps two machines in agreement. -/
theorem State.functional_withPending {s s' : State} (rest : List Request) (h : s'.functional = s.functional) :
    (s'.withPending rest).functional = (s.withPending rest).functional := by
  obtain ⟨hblock, -, hresponses⟩ := State.functional_eq_iff.mp h
  exact State.functional_eq_iff.mpr ⟨hblock, rfl, hresponses⟩

/-- What an instruction answers depends on the block it found, and joins the responses already there (rule R9). -/
theorem exec_responses_congr {i : Instr} {s s' t t' : State} (hb : s'.block = s.block)
    (hr : s'.responses = s.responses) (h : exec i s = .next t) (h' : exec i s' = .next t') :
    t'.responses = t.responses := by
  cases i with
  | readCtrl | readStatus | readDmaAddr | readDmaLen | readUnmapped _ =>
    cases h; cases h'; simp [hb, hr]
  | writeCtrlStart _ | writeCtrlReset _ | writeCtrlNocmd _ | writeStatus _ | writeDmaAddr _ | writeDmaLen _
  | writeUnmapped _ _ | reset =>
    cases h; cases h'; simp [hr]

/-- An instruction keeps two machines in agreement on the functional contract: it reads no diagnostic. -/
theorem exec_functional_congr {i : Instr} {s s' t t' : State} (hs : s'.functional = s.functional)
    (h : exec i s = .next t) (h' : exec i s' = .next t') : t'.functional = t.functional := by
  obtain ⟨hblock, hpending, hresponses⟩ := State.functional_eq_iff.mp hs
  exact State.functional_eq_iff.mpr
    ⟨exec_block_congr hblock h' h, by rw [exec_pending h', exec_pending h, hpending],
      exec_responses_congr hblock hresponses h h'⟩

/-- A step of a state whose oldest request is not accepted is refused for the boundary's reason. -/
theorem step_of_rejected {s : State} {r : Request} {rest : List Request} {e : Refusal}
    (hp : s.pending = r :: rest) (hr : acceptRequest r = .error e) : step s = .refused e := by
  unfold step
  rw [hp]
  simp [hr]

/-- Two machines that agree on the functional contract step alike: both go on in agreement, or both are refused for one
reason. -/
theorem step_functional_congr {s s' : State} (hs : s'.functional = s.functional) :
    (∃ t t', step s = .next t ∧ step s' = .next t' ∧ t'.functional = t.functional) ∨
    (∃ e, step s = .refused e ∧ step s' = .refused e) := by
  obtain ⟨-, hpending, -⟩ := State.functional_eq_iff.mp hs
  obtain ⟨hp, hstep⟩ | ⟨r, rest, i, hp, hr, hstep⟩ | ⟨r, rest, e, hp, hr, hstep⟩ := step_cases s
  · have hstep' : step s' = .next s' := by rw [step, hpending.trans hp]
    exact .inl ⟨s, s', hstep, hstep', hs⟩
  · obtain ⟨t, h⟩ := exec_completes i (s.withPending rest)
    obtain ⟨t', h'⟩ := exec_completes i (s'.withPending rest)
    have hstep' := step_of_accepted (hpending.trans hp) hr
    exact .inl ⟨t, t', hstep.trans h, hstep'.trans h',
      exec_functional_congr (State.functional_withPending rest hs) h h'⟩
  · exact .inr ⟨e, hstep, step_of_rejected (hpending.trans hp) hr⟩

/-- Two machines that agree on the functional contract run alike, for any number of steps. -/
theorem runSteps_functional_congr (k : Nat) {s s' : State} (hs : s'.functional = s.functional) :
    (∃ t t', runSteps k s = .next t ∧ runSteps k s' = .next t' ∧ t'.functional = t.functional) ∨
    (∃ e, runSteps k s = .refused e ∧ runSteps k s' = .refused e) := by
  induction k generalizing s s' with
  | zero => exact .inl ⟨s, s', runSteps_zero s, runSteps_zero s', hs⟩
  | succ k ih =>
    obtain ⟨t, t', h, h', ht⟩ | ⟨e, h, h'⟩ := step_functional_congr hs
    · rw [runSteps_of_next k h, runSteps_of_next k h']
      exact ih ht
    · exact .inr ⟨e, runSteps_of_refused k h, runSteps_of_refused k h'⟩

/-! ## The blocks of a system (rule R105) -/

/-- What a step of the block at `k` did to the system: nothing where there is no such block, and otherwise it put the
block's next state at `k`. -/
theorem stepAt_next_cases {k : Nat} {sys sys' : System} (h : stepAt k sys = .next sys') :
    (sys[k]? = none ∧ sys' = sys) ∨ (∃ s t, sys[k]? = some s ∧ step s = .next t ∧ sys' = sys.set k t) := by
  unfold stepAt at h
  cases hk : sys[k]? with
  | none =>
    simp only [hk] at h
    cases h
    exact .inl ⟨rfl, rfl⟩
  | some s =>
    cases hs : step s with
    | next t =>
      simp only [hk, hs] at h
      cases h
      exact .inr ⟨s, t, rfl, hs, rfl⟩
    | fault f => cases f
    | refused e => simp [hk, hs] at h

theorem stepAt_length {k : Nat} {sys sys' : System} (h : stepAt k sys = .next sys') :
    sys'.length = sys.length := by
  obtain ⟨-, rfl⟩ | ⟨s, t, -, -, rfl⟩ := stepAt_next_cases h
  · rfl
  · exact List.length_set

/-- A step of one block leaves the block at any other position as it was. -/
theorem stepAt_getElem?_of_ne {k j : Nat} {sys sys' : System} (hne : j ≠ k) (h : stepAt k sys = .next sys') :
    sys'[j]? = sys[j]? := by
  obtain ⟨-, rfl⟩ | ⟨s, t, -, -, rfl⟩ := stepAt_next_cases h
  · rfl
  · exact List.getElem?_set_ne hne.symm

@[simp] theorem resetAt_length (sys : System) (k : Nat) : (resetAt sys k).length = sys.length :=
  List.length_modify _ _ _

/-- A `Reset()` of one block leaves the block at any other position as it was. -/
theorem resetAt_getElem?_of_ne {k j : Nat} (sys : System) (hne : j ≠ k) : (resetAt sys k)[j]? = sys[j]? :=
  List.getElem?_modify_ne _ _ hne.symm

/-! ## The statements -/

/-- Settles O40: replacing the diagnostic output keeps the functional contract, and machines that agree on it run
alike. -/
theorem nothingDependsOnDiagnostics : Obligations.NothingDependsOnDiagnostics := by
  unfold Obligations.NothingDependsOnDiagnostics
  intro k s ds
  have hagree : State.functional { s with diags := ds } = s.functional := rfl
  obtain ⟨t, u, ht, hu, hfun⟩ | ⟨e, he, he'⟩ := runSteps_functional_congr k hagree
  · rw [ht, hu]
    constructor
    · rintro _ ⟨⟩
      exact ⟨u, rfl, hfun⟩
    · rintro _ ⟨⟩
  · rw [he, he']
    constructor
    · rintro _ ⟨⟩
    · exact fun _ h => h

/-- Settles O42: a step writes the block it runs and a `Reset()` the block it resets, at their own position alone. -/
theorem blocksShareNoState : Obligations.BlocksShareNoState := by
  unfold Obligations.BlocksShareNoState
  intro sys k j hne
  exact ⟨fun _ h => ⟨stepAt_length h, stepAt_getElem?_of_ne hne h⟩, resetAt_length sys k,
    resetAt_getElem?_of_ne sys hne⟩

end Sys2Proof.Machine

/-! PROOFS. The family `70_reset_and_hazards.md`: no write-to-read latency. A write and a read run one after the other,
so the read answers from the block the write left. What a write leaves in the register read is then a fact about the
`write` operation alone. -/

namespace Sys2Proof.Machine

/-! ## What a write leaves to be read -/

/-- No command reaches CTRL: a CTRL write stores its value, commands in it or not (rules R79, R80). -/
@[simp] theorem Block.command_ctrl (b : Block) (c : Command) : (b.command c).ctrl = b.ctrl := by
  cases c <;> rfl

/-- A write to a register other than STATUS leaves the value written in it (rules R79 to R81, R83, R84). -/
theorem Block.get_writeOp_same (b : Block) {r : Reg} (v : Word) (h : r ≠ .status) :
    (b.writeOp r.offset v).1.get r = v := by
  unfold Block.writeOp
  rw [decodeOffset_regOffset]
  cases r with
  | ctrl => simp
  | status => exact absurd rfl h
  | dmaAddr => simp
  | dmaLen => simp

/-- A CTRL write with command `Reset` leaves STATUS clear, whatever it held (rule R80). -/
theorem Block.writeOp_reset_status (b : Block) {v : Word} (h : commandOf v = .reset) :
    (b.writeOp Reg.ctrl.offset v).1.status = 0x00000000#32 := by
  unfold Block.writeOp
  rw [decodeOffset_regOffset, h]
  rfl

/-! ## A write and the read right after it -/

/-- A `BusWrite` and a `BusRead` right after it answer `Done` and what the register read holds in the block the write
left (rules R49, R115). -/
theorem runSteps_busWrite_busRead {s : State} {rest : List Request} {offset v w : Word} (r : Reg)
    (hp : s.pending = Request.whole (packWord opBusWrite offset v) ::
      Request.whole (packWord opBusRead r.offset w) :: rest) :
    ∃ t, runSteps 2 s = .next t ∧ t.pending = rest ∧
      t.responses = s.responses ++ [.done, .readData ((s.block.writeOp offset v).1.get r)] := by
  obtain ⟨t, hwrite, hblock, hpending, hdone⟩ := step_busWrite hp
  obtain ⟨u, hread, -, hrest, hdata⟩ := step_busRead hpending
  have hrun : runSteps 2 s = .next u := by rw [runSteps_of_next 1 hwrite, runSteps_of_next 0 hread, runSteps_zero]
  refine ⟨u, hrun, hrest, ?_⟩
  rw [hdata, hdone, hblock, decodeOffset_regOffset, rdataOf_mapped, List.append_assoc, List.singleton_append]

/-! ## The statement -/

/-- Settles O39: the read answers from the block the write left, which holds the value written, or a STATUS the RESET
command cleared. -/
theorem nextReadSeesTheWrite : Obligations.NextReadSeesTheWrite := by
  unfold Obligations.NextReadSeesTheWrite
  constructor
  · intro s rest r v w hr hp
    have hrun := runSteps_busWrite_busRead r hp
    rwa [Block.get_writeOp_same s.block v hr] at hrun
  · intro s rest v w hv hp
    have hrun := runSteps_busWrite_busRead (offset := Reg.ctrl.offset) .status hp
    rwa [Block.get_status, Block.writeOp_reset_status s.block hv] at hrun

end Sys2Proof.Machine

/-! PROOFS. The family `other`, part 1: what each instruction does. A fact about all instructions is said once, by cases
over `Instr`, and the invariant of rules R23 and R27 and the state machine of rule R35 are read off it. -/

namespace Sys2Proof.Machine

/-! ## STATUS and the flag -/

/-- DONE is bit 0 of STATUS (rule R19). -/
theorem statusDone_eq_getLsbD (status : Word) : statusDone status = status.getLsbD 0 := by
  have hd : doneMask = BitVec.twoPow 32 0 := rfl
  rw [statusDone, hd, BitVec.and_twoPow]
  cases status.getLsbD 0 <;> decide

/-- A START sets DONE, whatever STATUS held (rule R79). -/
@[simp] theorem statusDone_startStatus (status : Word) : statusDone (startStatus status) = true := by
  rw [statusDone_eq_getLsbD, getLsbD_startStatus, if_pos rfl]

/-- A START changes no bit of STATUS but the lowest two (rule R79). -/
theorem startStatus_and_reserved (status : Word) :
    startStatus status &&& 0xFFFFFFFC#32 = status &&& 0xFFFFFFFC#32 := by
  apply BitVec.eq_of_getLsbD_eq
  intro k _
  rw [BitVec.getLsbD_and, BitVec.getLsbD_and, getLsbD_startStatus]
  match k with
  | 0 => simp
  | 1 => simp
  | k + 2 => simp

/-- What an instruction does to STATUS and the flag together: a START sets the flag, whatever clears DONE clears the
flag, and any other instruction keeps both (rules R20, R26). -/
theorem exec_control_cases {i : Instr} {s t : State} (h : exec i s = .next t) :
    (∃ v, i = .writeCtrlStart v ∧ t.block.status = startStatus s.block.status ∧
      t.block.operationActive = true) ∨
    (i.clearsDone = true ∧ t.block.status = clearedStatus ∧ t.block.operationActive = false) ∨
    (i.writesStatus = false ∧ t.block.status = s.block.status ∧
      t.block.operationActive = s.block.operationActive) := by
  cases i with
  | writeCtrlStart v => cases h; exact .inl ⟨v, rfl, rfl, rfl⟩
  | writeCtrlReset _ | reset => cases h; exact .inr (.inl ⟨rfl, rfl, rfl⟩)
  | _ => cases h; exact .inr (.inr ⟨rfl, rfl, rfl⟩)

/-! ## The invariant (rules R23, R27) -/

/-- STATUS at 1 with the flag set meets the invariant. -/
theorem Block.inv_of_done {b : Block} (hs : b.status = 0x00000001#32) (ha : b.operationActive = true) : b.Inv :=
  ⟨.inr hs, by rw [Block.FlagAgrees, hs, ha]; rfl⟩

/-- STATUS at 0 with the flag clear meets the invariant. -/
theorem Block.inv_of_cleared {b : Block} (hs : b.status = clearedStatus) (ha : b.operationActive = false) : b.Inv :=
  ⟨.inl hs, by rw [Block.FlagAgrees, hs, ha]; rfl⟩

/-- The invariant speaks of STATUS and the flag alone. -/
theorem Block.inv_congr {b b' : Block} (hs : b'.status = b.status) (ha : b'.operationActive = b.operationActive)
    (h : b.Inv) : b'.Inv := by
  simpa only [Block.Inv, Block.StatusLegal, Block.FlagAgrees, hs, ha] using h

/-- Every instruction keeps the invariant. -/
theorem exec_keeps_inv {i : Instr} {s t : State} (h : exec i s = .next t) (hinv : s.block.Inv) : t.block.Inv := by
  obtain ⟨v, -, hs, ha⟩ | ⟨-, hs, ha⟩ | ⟨-, hs, ha⟩ := exec_control_cases h
  · exact Block.inv_of_done (hs.trans (startStatus_of_legal hinv.1)) ha
  · exact Block.inv_of_cleared hs ha
  · exact Block.inv_congr hs ha hinv

/-! ## The state machine (rules R34, R35) -/

@[simp] theorem fsmOf_clearedStatus : fsmOf clearedStatus = some .idle := by decide

/-- A STATUS with DONE set is in OPERATION_COMPLETE, since it is not 0 (rule R34). -/
theorem fsmOf_of_done {status : Word} (h : statusDone status = true) : fsmOf status = some .operationComplete := by
  have hne : status ≠ 0x00000000#32 := by
    rintro rfl
    exact absurd h (by decide)
  rw [fsmOf, if_neg hne, if_pos h]

/-- An instruction that clears DONE takes the state machine to IDLE (rule R35). -/
theorem Fsm.next_of_clearsDone {i : Instr} (f : Fsm) (h : i.clearsDone = true) : f.next i = .idle := by
  cases i with
  | writeCtrlReset _ | reset => rfl
  | _ => simp [Instr.clearsDone] at h

/-- An instruction that does not write STATUS leaves the state machine where it is (rule R35). -/
theorem Fsm.next_of_not_writesStatus {i : Instr} (f : Fsm) (h : i.writesStatus = false) : f.next i = f := by
  cases i with
  | writeCtrlStart _ | writeCtrlReset _ | reset => simp [Instr.writesStatus] at h
  | _ => rfl

/-- Each instruction moves the state machine as the transition table says. -/
theorem exec_fsm {i : Instr} {s t : State} {f : Fsm} (h : exec i s = .next t) (hf : fsmOf s.block.status = some f) :
    fsmOf t.block.status = some (f.next i) := by
  obtain ⟨v, rfl, hs, -⟩ | ⟨hc, hs, -⟩ | ⟨hw, hs, -⟩ := exec_control_cases h
  · rw [hs, fsmOf_of_done (statusDone_startStatus _), Fsm.next]
  · rw [hs, fsmOf_clearedStatus, Fsm.next_of_clearsDone f hc]
  · rw [hs, hf, Fsm.next_of_not_writesStatus f hw]

/-! ## The statements on one instruction and on the invariant -/

/-- Settles O28: an idle step keeps the block, and any other step that goes on ran an instruction. -/
theorem stepKeepsStatusAndFlagInvariant : Obligations.StepKeepsStatusAndFlagInvariant := by
  unfold Obligations.StepKeepsStatusAndFlagInvariant
  intro s t hinv h
  obtain ⟨-, rfl⟩ | ⟨r, rest, i, -, -, hexec⟩ := step_next_cases h
  · exact hinv
  · exact exec_keeps_inv hexec hinv

/-- Settles O29: at reset STATUS is 0 and the flag is clear. -/
theorem resetStateMeetsStatusAndFlagInvariant : Obligations.ResetStateMeetsStatusAndFlagInvariant := by
  unfold Obligations.ResetStateMeetsStatusAndFlagInvariant
  exact Block.inv_of_cleared rfl rfl

/-- Settles O32: the two legal values of STATUS have the two states, and every instruction follows the table. -/
theorem stateMachineFollowsTransitionTable : Obligations.StateMachineFollowsTransitionTable := by
  unfold Obligations.StateMachineFollowsTransitionTable
  constructor
  · rintro b (h | h)
    · exact ⟨.idle, by rw [h]; rfl⟩
    · exact ⟨.operationComplete, by rw [h]; exact fsmOf_of_done (by decide)⟩
  · intro i s f hf
    obtain ⟨t, h⟩ := exec_completes i s
    exact ⟨t, h, exec_fsm h hf⟩

/-- Settles O9: each read completes with the data of its register, over the block it found. -/
theorem mappedReadsAnswerTheirRegister : Obligations.MappedReadsAnswerTheirRegister := by
  unfold Obligations.MappedReadsAnswerTheirRegister
  intro s
  exact ⟨⟨_, rfl, rfl⟩, ⟨_, rfl, rfl⟩, ⟨_, rfl, rfl⟩, ⟨_, rfl, rfl⟩⟩

/-- Settles O10: an unmapped offset selects `READ_UNMAPPED`, whose data is that of no register. -/
theorem unmappedReadAnswersZero : Obligations.UnmappedReadAnswersZero := by
  unfold Obligations.UnmappedReadAnswersZero
  intro s offset ho
  have hread := classifyRead_completesWith offset s
  rwa [classifyRead_of_unmapped ho, ho, rdataOf_unmapped] at hread

/-- Settles O11: the START writes its value, `startStatus` of STATUS and the flag, and nothing else of the block. -/
theorem startCommandSetsDone : Obligations.StartCommandSetsDone := by
  unfold Obligations.StartCommandSetsDone
  intro s v _
  refine ⟨_, rfl, rfl, statusDone_startStatus _, statusBusy_startStatus _, startStatus_and_reserved _, rfl, rfl, rfl,
    rfl, fun hlegal => ?_⟩
  have hstatus := startStatus_of_legal hlegal
  exact ⟨hstatus, (Block.inv_of_done hstatus rfl).2⟩

/-- Settles O12: the RESET command writes its value, a clear STATUS and a clear flag. -/
theorem resetCommandClearsStatusOnly : Obligations.ResetCommandClearsStatusOnly := by
  unfold Obligations.ResetCommandClearsStatusOnly
  exact fun _ _ _ => ⟨_, rfl, rfl⟩

/-- Settles O13: a CTRL write without a command writes its value. -/
theorem plainCtrlWriteStoresOnly : Obligations.PlainCtrlWriteStoresOnly := by
  unfold Obligations.PlainCtrlWriteStoresOnly
  exact fun _ _ _ => ⟨_, rfl, rfl⟩

/-- Settles O14: a STATUS write completes over the block it found. -/
theorem statusWriteChangesNothing : Obligations.StatusWriteChangesNothing := by
  unfold Obligations.StatusWriteChangesNothing
  exact fun _ _ => ⟨_, rfl, rfl⟩

/-- Settles O15: a DMA_ADDR write stores its value. -/
theorem dmaAddrWriteStoresVerbatim : Obligations.DmaAddrWriteStoresVerbatim := by
  unfold Obligations.DmaAddrWriteStoresVerbatim
  exact fun _ _ => ⟨_, rfl, rfl⟩

/-- Settles O16: a DMA_LEN write stores its value. -/
theorem dmaLenWriteStoresVerbatim : Obligations.DmaLenWriteStoresVerbatim := by
  unfold Obligations.DmaLenWriteStoresVerbatim
  exact fun _ _ => ⟨_, rfl, rfl⟩

/-- Settles O17: a write to an unmapped offset completes over the block it found. -/
theorem unmappedWriteChangesNothing : Obligations.UnmappedWriteChangesNothing := by
  unfold Obligations.UnmappedWriteChangesNothing
  exact fun _ _ _ _ => ⟨_, rfl, rfl⟩

/-- Settles O18: `Reset()` leaves the reset block, which is the block the machine starts with. -/
theorem resetLeavesResetValues : Obligations.ResetLeavesResetValues := by
  unfold Obligations.ResetLeavesResetValues
  exact ⟨fun s => ⟨s.completeReset, rfl, rfl, rfl, rfl, rfl, rfl, fsmOf_clearedStatus, rfl, rfl⟩, rfl⟩

end Sys2Proof.Machine

/-! PROOFS. The family `other`, part 2: one step and the block's boundary. A step on a whole-word request is compared
once with the transaction function of rule R9 (`transact`), and what a step leaves is then read off that function. -/

namespace Sys2Proof

/-! ## Which words carry which transaction -/

/-- The op of a word is one of the three kinds or the reserved one (rules R59, R61). -/
theorem opField_cases (T : TxnWord) :
    opField T = opBusRead ∨ opField T = opBusWrite ∨ opField T = opReset ∨ opField T = 0b11#2 := by
  have hop : ∀ op : BitVec 2, op = opBusRead ∨ op = opBusWrite ∨ op = opReset ∨ op = 0b11#2 := by decide
  exact hop (opField T)

theorem decodeTxn_of_opBusRead {T : TxnWord} (h : opField T = opBusRead) :
    decodeTxn T = .ok (.busRead (offsetField T)) := by
  rw [decodeTxn, if_pos h]

theorem decodeTxn_of_opBusWrite {T : TxnWord} (h : opField T = opBusWrite) :
    decodeTxn T = .ok (.busWrite (offsetField T) (wdataField T)) := by
  rw [← packWord_fields T, h, decodeTxn_write, offsetField_packWord, wdataField_packWord]

theorem decodeTxn_of_opReset {T : TxnWord} (h : opField T = opReset) : decodeTxn T = .ok .reset := by
  rw [← packWord_fields T, h, decodeTxn_reset]

/-- The reserved op selects no transaction (rule R61). -/
theorem decodeTxn_of_reserved {T : TxnWord} (h : opField T = 0b11#2) : decodeTxn T = .error .reservedOp := by
  rw [decodeTxn, h]
  rfl

/-- A word that selects a transaction decodes to the transaction's row (rule R66). -/
theorem decode_of_decodeTxn {T : TxnWord} {x : Txn} (h : decodeTxn T = .ok x) : decode T = .ok (classify x) := by
  rw [decode, h]

end Sys2Proof

namespace Sys2Proof.Machine

/-! ## The boundary (rules R42, R61) -/

/-- A bus access is accepted exactly when it is one whole word (rule R42). -/
theorem acceptRequest_busRead {r : Request} {offset : Word} (h : decodeTxn r.word = .ok (.busRead offset)) :
    acceptRequest r = if r.bytes = 4 then .ok (classifyRead offset) else .error .accessWidth := by
  rw [acceptRequest, h]
  rfl

theorem acceptRequest_busWrite {r : Request} {offset v : Word} (h : decodeTxn r.word = .ok (.busWrite offset v)) :
    acceptRequest r = if r.bytes = 4 then .ok (classifyWrite offset v) else .error .accessWidth := by
  rw [acceptRequest, h]
  rfl

/-- A `Reset()` has no width and is always accepted (rule R58). -/
theorem acceptRequest_reset {r : Request} (h : decodeTxn r.word = .ok .reset) : acceptRequest r = .ok .reset := by
  rw [acceptRequest, h]
  rfl

theorem acceptRequest_reserved {r : Request} (h : decodeTxn r.word = .error .reservedOp) :
    acceptRequest r = .error .reservedOp := by
  rw [acceptRequest, h]

/-- A bus access that is not one whole word is refused for its width (rule R42). -/
theorem acceptRequest_of_bytes_ne {r : Request} {x : Txn} (h : decodeTxn r.word = .ok x) (hx : x ≠ .reset)
    (hb : r.bytes ≠ 4) : acceptRequest r = .error .accessWidth := by
  cases x with
  | busRead offset => rw [acceptRequest_busRead h, if_neg hb]
  | busWrite offset v => rw [acceptRequest_busWrite h, if_neg hb]
  | reset => exact absurd rfl hx

/-- Why the boundary refuses a request: the reserved op first, then the width of a bus access (rules R42, R61). -/
theorem acceptRequest_eq_error_iff {r : Request} {e : Refusal} :
    acceptRequest r = .error e ↔
      (e = .reservedOp ∧ opField r.word = 0b11#2) ∨
      (e = .accessWidth ∧ (opField r.word = opBusRead ∨ opField r.word = opBusWrite) ∧ r.bytes ≠ 4) := by
  obtain hop | hop | hop | hop := opField_cases r.word
  · rw [acceptRequest_busRead (decodeTxn_of_opBusRead hop), hop]
    by_cases hb : r.bytes = 4 <;> simp [hb, opBusRead, @eq_comm _ e]
  · rw [acceptRequest_busWrite (decodeTxn_of_opBusWrite hop), hop]
    by_cases hb : r.bytes = 4 <;> simp [hb, opBusWrite, @eq_comm _ e]
  · rw [acceptRequest_reset (decodeTxn_of_opReset hop), hop]
    simp [opBusRead, opBusWrite, opReset]
  · rw [acceptRequest_reserved (decodeTxn_of_reserved hop), hop]
    simp [opBusRead, opBusWrite, @eq_comm _ e]

/-- A step is refused exactly when the boundary refuses its oldest request, and for that reason. -/
theorem step_eq_refused_iff {s : State} {r : Request} {rest : List Request} {e : Refusal}
    (hp : s.pending = r :: rest) : step s = .refused e ↔ acceptRequest r = .error e := by
  cases hr : acceptRequest r with
  | error e' => rw [step_of_rejected hp hr]; simp
  | ok i =>
    obtain ⟨t, h⟩ := exec_completes i (s.withPending rest)
    rw [step_of_accepted hp hr, h]
    simp

/-! ## A step is the transaction function (rule R9) -/

/-- The row of a transaction completes as the transaction function says (rules R2, R66). -/
theorem classify_completesWith (x : Txn) (s : State) :
    CompletesWith (classify x) s (transact x s.block).1 (transact x s.block).2.1 := by
  cases x with
  | busRead offset =>
    have hdata : (s.block.readOp offset).1 = rdataOf s.block (decodeOffset offset) := by
      unfold Block.readOp
      cases decodeOffset offset <;> rfl
    rw [transact, hdata]
    exact classifyRead_completesWith offset s
  | busWrite offset v => exact classifyWrite_completesWith offset v s
  | reset => exact ⟨_, rfl, rfl⟩

/-- A step on a whole-word request that selects a transaction is the transaction function. -/
theorem step_transact {s : State} {T : TxnWord} {rest : List Request} {x : Txn}
    (hp : s.pending = Request.whole T :: rest) (hx : decodeTxn T = .ok x) :
    ∃ t, step s = .next t ∧
      t.functional = ((transact x s.block).1, rest, s.responses ++ [(transact x s.block).2.1]) := by
  obtain ⟨t, hstep, hblock, hpending, hresponses⟩ :=
    step_of_completesWith hp (decode_of_decodeTxn hx) (classify_completesWith x (s.withPending rest))
  exact ⟨t, hstep, by rw [State.functional, hblock, hpending, hresponses]; rfl⟩

/-- A step makes of a whole-word request what the word decodes to, and nothing else of the word. -/
theorem step_congr_word {s : State} {T T' : TxnWord} {rest : List Request} {i : Instr} (h : decode T = .ok i)
    (h' : decode T' = .ok i) :
    step (s.withPending (Request.whole T :: rest)) = step (s.withPending (Request.whole T' :: rest)) := by
  rw [step_of_accepted rfl (acceptRequest_of_decode h), step_of_accepted rfl (acceptRequest_of_decode h')]
  rfl

/-! ## What the transaction function leaves -/

/-- A read of an unmapped offset answers 0 over the block it found (rule R77). -/
theorem transact_busRead_unmapped (b : Block) {offset : Word} (h : decodeOffset offset = .unmapped) :
    (transact (.busRead offset) b).1 = b ∧ (transact (.busRead offset) b).2.1 = .readData 0x00000000#32 := by
  simp [transact, Block.readOp, h]

/-- A write to an unmapped offset leaves the block it found (rule R85). -/
theorem transact_busWrite_unmapped (b : Block) {offset v : Word} (h : decodeOffset offset = .unmapped) :
    (transact (.busWrite offset v) b).1 = b ∧ (transact (.busWrite offset v) b).2.1 = .done := by
  simp [transact, Block.writeOp, h]

/-- A write to CTRL overwrites what CTRL held before it looks at its command (rule R87). -/
theorem Block.writeOp_ctrl_of_ctrl (b : Block) (c v : Word) :
    (({ b with ctrl := c } : Block).writeOp Reg.ctrl.offset v).1 = (b.writeOp Reg.ctrl.offset v).1 := by
  simp only [Block.writeOp, decodeOffset_regOffset]
  rfl

/-! ## The statements -/

/-- Settles O33: the instruction a step runs completes as the transaction function says. -/
theorem stepRefinesTransactionFunction : Obligations.StepRefinesTransactionFunction := by
  unfold Obligations.StepRefinesTransactionFunction
  exact fun _ _ _ _ hp hx => step_transact hp hx

/-- Settles O19: a decoded whole word is accepted, and the step runs its instruction. -/
theorem stepRunsDecodedInstruction : Obligations.StepRunsDecodedInstruction := by
  unfold Obligations.StepRunsDecodedInstruction
  intro s T rest i hp hdec _
  exact step_of_accepted hp (acceptRequest_of_decode hdec)

/-- Settles O20: with no request the step idles. -/
theorem stepWithoutRequestChangesNothing : Obligations.StepWithoutRequestChangesNothing := by
  unfold Obligations.StepWithoutRequestChangesNothing
  intro s hp
  rw [step, hp]

/-- Settles O21: a step refuses what the boundary refuses, and the boundary refuses these two. -/
theorem refusalsAreExactlyTheBoundarys : Obligations.RefusalsAreExactlyTheBoundarys := by
  unfold Obligations.RefusalsAreExactlyTheBoundarys
  intro s r rest e hp
  exact (step_eq_refused_iff hp).trans acceptRequest_eq_error_iff

/-- Settles O22: by the op of the word, which says the transaction and so its response. -/
theorem everyTransactionCompletesWithItsResponse : Obligations.EveryTransactionCompletesWithItsResponse := by
  unfold Obligations.EveryTransactionCompletesWithItsResponse
  intro s T rest hp hne
  have hcompletes {x : Txn} (hx : decodeTxn T = .ok x) :
      ∃ t, step s = .next t ∧ t.pending = rest ∧ t.responses = s.responses ++ [(transact x s.block).2.1] := by
    obtain ⟨t, hstep, hfun⟩ := step_transact hp hx
    obtain ⟨-, hpending, hresponses⟩ : t.block = _ ∧ t.pending = _ ∧ t.responses = _ := by
      simpa [State.functional] using hfun
    exact ⟨t, hstep, hpending, hresponses⟩
  obtain hop | hop | hop | hop := opField_cases T
  · obtain ⟨t, hstep, hpending, hresponses⟩ := hcompletes (decodeTxn_of_opBusRead hop)
    exact ⟨t, hstep, hpending, fun _ => ⟨_, hresponses⟩, fun h => absurd hop h⟩
  · obtain ⟨t, hstep, hpending, hresponses⟩ := hcompletes (decodeTxn_of_opBusWrite hop)
    exact ⟨t, hstep, hpending, fun h => absurd (hop.symm.trans h) (by decide), fun _ => hresponses⟩
  · obtain ⟨t, hstep, hpending, hresponses⟩ := hcompletes (decodeTxn_of_opReset hop)
    exact ⟨t, hstep, hpending, fun h => absurd (hop.symm.trans h) (by decide), fun _ => hresponses⟩
  · exact absurd hop hne

/-- Settles O3: words of one kind that differ in ignored fields alone decode to one instruction. -/
theorem ignoredFieldsChangeNothing : Obligations.IgnoredFieldsChangeNothing := by
  unfold Obligations.IgnoredFieldsChangeNothing
  intro s rest offset offset' v v'
  exact ⟨step_congr_word (decode_busRead offset v) (decode_busRead offset v'),
    step_congr_word (decode_resetWord offset v) (decode_resetWord offset' v')⟩

/-- Settles O26: the four inequalities make the offset unmapped, and the transaction function does nothing there. -/
theorem unmappedOffsetsReachNoRegister : Obligations.UnmappedOffsetsReachNoRegister := by
  unfold Obligations.UnmappedOffsetsReachNoRegister
  intro s rest offset v hctrl hstatus haddr hlen
  have ho : decodeOffset offset = .unmapped :=
    decodeOffset_eq_unmapped_iff.mpr (Reg.forall_iff.mpr ⟨hctrl, hstatus, haddr, hlen⟩)
  obtain ⟨hreadBlock, hreadResp⟩ := transact_busRead_unmapped s.block ho
  obtain ⟨hwriteBlock, hwriteResp⟩ := transact_busWrite_unmapped (v := v) s.block ho
  constructor
  · intro hp
    have hstep := step_transact hp (decodeTxn_read offset v)
    rwa [hreadBlock, hreadResp] at hstep
  · intro hp
    have hstep := step_transact hp (decodeTxn_write offset v)
    rwa [hwriteBlock, hwriteResp] at hstep

/-- Settles O27: both steps run one write, over blocks that differ in the CTRL it overwrites. -/
theorem priorCtrlDoesNotMatter : Obligations.PriorCtrlDoesNotMatter := by
  unfold Obligations.PriorCtrlDoesNotMatter
  intro s rest c v hp
  obtain ⟨t, ht, htblock, htpending, htresponses⟩ := step_busWrite (offset := Reg.ctrl.offset) hp
  obtain ⟨u, hu, hublock, hupending, huresponses⟩ :=
    step_busWrite (s := s.withBlock { s.block with ctrl := c }) (offset := Reg.ctrl.offset) hp
  have hctrl : t.block.ctrl = v := by
    rw [htblock]
    exact s.block.get_writeOp_same (r := .ctrl) v (by decide)
  have hblock : u.block = t.block := by
    rw [hublock, htblock, State.withBlock_block, Block.writeOp_ctrl_of_ctrl]
  exact ⟨t, u, ht, hu, hctrl,
    State.functional_eq_iff.mpr ⟨hblock, hupending.trans htpending.symm, huresponses.trans htresponses.symm⟩⟩

end Sys2Proof.Machine

/-! PROOFS. The family `other`, part 3: histories of any length. A run of the machine on the requests of a history is
tied once to the relation `Ran`, which runs the instructions one after the other. Each statement about a history is
then an induction over `Ran`, with one fact about a single instruction at its step. -/

namespace Sys2Proof.Machine

/-! ## Running the instructions of a history -/

/-- The instructions of a history, run one after the other from the first state, lead to the second. -/
inductive Ran : List Instr → State → State → Prop
  | nil (s : State) : Ran [] s s
  | cons {i : Instr} {history : List Instr} {s s₁ t : State} (head : exec i s = .next s₁)
      (tail : Ran history s₁ t) : Ran (i :: history) s t

/-- Every history runs to its end, since every instruction completes. -/
theorem exists_ran (history : List Instr) (s : State) : ∃ t, Ran history s t := by
  induction history generalizing s with
  | nil => exact ⟨s, .nil s⟩
  | cons i history ih =>
    obtain ⟨s₁, h⟩ := exec_completes i s
    obtain ⟨t, ht⟩ := ih s₁
    exact ⟨t, .cons h ht⟩

/-- The machine, given the requests of a history ahead of others, comes to where the history leads and goes on with the
others. -/
theorem runSteps_of_ran {history : List Instr} {s t : State} (k : Nat) (rest : List Request)
    (hwf : ∀ i ∈ history, i.wf = true) (h : Ran history s t) :
    runSteps (history.length + k) (s.withPending (history.map requestOf ++ rest)) =
      runSteps k (t.withPending rest) := by
  induction h with
  | nil s => rw [List.length_nil, Nat.zero_add, List.map_nil, List.nil_append]
  | cons head tail ih =>
    obtain ⟨hi, hrest⟩ := List.forall_mem_cons.mp hwf
    rw [List.length_cons, Nat.add_right_comm, List.map_cons, List.cons_append, runSteps_requestOf _ _ hi head]
    exact ih hrest

/-- The machine, given the requests of a history and no others, comes to where the history leads. -/
theorem runSteps_of_ran_all {history : List Instr} {s t : State} (hwf : ∀ i ∈ history, i.wf = true)
    (h : Ran history s t) :
    runSteps history.length (s.withPending (history.map requestOf)) = .next (t.withPending []) := by
  simpa [runSteps_zero] using runSteps_of_ran 0 [] hwf h

/-- The machine, given the requests of a history and one more instruction, comes to where that instruction leads. -/
theorem runSteps_of_ran_snoc {history : List Instr} {i : Instr} {s t u : State} (hwf : ∀ j ∈ history, j.wf = true)
    (hi : i.wf = true) (h : Ran history s t) (hlast : exec i t = .next u) :
    runSteps (history.length + 1) (s.withPending ((history ++ [i]).map requestOf)) = .next (u.withPending []) := by
  rw [List.map_append, runSteps_of_ran 1 _ hwf h]
  exact runSteps_requestOf 0 [] hi hlast

/-- What every instruction keeps, a history keeps. -/
theorem Ran.keeps {P : State → Prop} {history : List Instr} {s t : State} (h : Ran history s t)
    (hstep : ∀ i ∈ history, ∀ s t, exec i s = .next t → P s → P t) (hs : P s) : P t := by
  induction h with
  | nil s => exact hs
  | cons head tail ih =>
    obtain ⟨hi, hrest⟩ := List.forall_mem_cons.mp hstep
    exact ih hrest (hi _ _ head hs)

/-! ## A stream of accepted requests (rule R108) -/

/-- A step on an accepted request takes it and adds one response (rule R58). -/
theorem step_accepted {s : State} {r : Request} {rest : List Request} (hp : s.pending = r :: rest)
    (hr : r.accepted = true) :
    ∃ t, step s = .next t ∧ t.pending = rest ∧ t.responses.length = s.responses.length + 1 := by
  unfold Request.accepted at hr
  cases hi : acceptRequest r with
  | error e => simp [hi] at hr
  | ok i =>
    obtain ⟨t, h⟩ := exec_completes i (s.withPending rest)
    exact ⟨t, (step_of_accepted hp hi).trans h, exec_pending h, exec_responses_length (s := s.withPending rest) h⟩

/-- Settles O34, by induction on the stream: a step takes its oldest request and answers it. -/
theorem runAnswersEveryRequest : Obligations.RunAnswersEveryRequest := by
  unfold Obligations.RunAnswersEveryRequest
  intro s hacc
  generalize hp : s.pending = rs at hacc
  induction rs generalizing s with
  | nil => exact ⟨s, runSteps_zero s, hp, rfl⟩
  | cons r rest ih =>
    obtain ⟨hr, hrest⟩ := List.forall_mem_cons.mp hacc
    obtain ⟨s₁, hstep, hpending, hlength⟩ := step_accepted hp hr
    obtain ⟨t, hrun, hdone, hresponses⟩ := ih s₁ hpending hrest
    refine ⟨t, (runSteps_of_next _ hstep).trans hrun, hdone, ?_⟩
    rw [hresponses, hlength, List.length_cons]
    omega

/-! ## The last value stored in a register (rules R17, R49) -/

/-- An instruction leaves in each register what it stores there, and what the register held where it stores nothing. -/
theorem exec_get {i : Instr} {s t : State} (r : Reg) (h : exec i s = .next t) (hlegal : s.block.StatusLegal) :
    t.block.get r = (storedBy i r).getD (s.block.get r) := by
  cases i with
  | writeCtrlStart v =>
    cases h
    cases r with
    | status => exact startStatus_of_legal hlegal
    | ctrl | dmaAddr | dmaLen => rfl
  | _ => cases h; cases r <;> rfl

/-- The last value stored by a history, by the history's first instruction. -/
theorem lastStored_cons (r : Reg) (before : Word) (i : Instr) (history : List Instr) :
    lastStored r before (i :: history) = lastStored r ((storedBy i r).getD before) history := by
  unfold lastStored
  rw [List.reverse_cons, List.findSome?_append, List.findSome?_singleton, Option.getD_or]

/-- A history leaves in each register the last value it stored there. -/
theorem Ran.get_eq_lastStored {history : List Instr} {s t : State} (h : Ran history s t) (hinv : s.block.Inv)
    (r : Reg) : t.block.get r = lastStored r (s.block.get r) history := by
  induction h with
  | nil s => rfl
  | cons head tail ih => rw [ih (exec_keeps_inv head hinv), exec_get r head hinv.1, lastStored_cons]

@[simp] theorem wf_readInstr (r : Reg) : r.readInstr.wf = true := by
  cases r <;> rfl

/-- The read of a register answers the register over the block it found (rules R73 to R76). -/
theorem readInstr_completesWith (r : Reg) (s : State) :
    CompletesWith r.readInstr s s.block (.readData (s.block.get r)) := by
  cases r <;> exact ⟨_, rfl, rfl⟩

/-- A history and a read of a register after it run to their end: the block is as the history left it, and the last
response is the register. -/
theorem runSteps_history_read {history : List Instr} {s t : State} (r : Reg) (hwf : ∀ i ∈ history, i.wf = true)
    (h : Ran history s t) :
    ∃ u, runSteps (history.length + 1) (s.withPending ((history ++ [r.readInstr]).map requestOf)) = .next u ∧
      u.pending = [] ∧ u.responses.getLast? = some (.readData (t.block.get r)) ∧ u.block = t.block := by
  obtain ⟨u, hread, hfun⟩ := readInstr_completesWith r t
  obtain ⟨hblock, -, hresponses⟩ : u.block = _ ∧ u.pending = _ ∧ u.responses = _ := by
    simpa [State.functional] using hfun
  refine ⟨u.withPending [], runSteps_of_ran_snoc hwf (wf_readInstr r) h hread, rfl, ?_, hblock⟩
  rw [State.withPending_responses, hresponses, List.getLast?_concat]

/-- Settles O35: the read answers from the block the history left, and that holds the last value stored. -/
theorem readAnswersMostRecentWrite : Obligations.ReadAnswersMostRecentWrite := by
  unfold Obligations.ReadAnswersMostRecentWrite
  intro s history r hinv hwf
  obtain ⟨t, ht⟩ := exists_ran history s
  obtain ⟨u, hrun, hpending, hlast, hblock⟩ := runSteps_history_read r hwf ht
  rw [ht.get_eq_lastStored hinv] at hlast
  exact ⟨u, hrun, hpending, hlast, fun r' => hblock ▸ ht.get_eq_lastStored hinv r'⟩

/-! ## DONE stays set (rules R21, R113) -/

/-- STATUS reads as a completed operation: DONE set and BUSY clear (rule R19). -/
def Completed (status : Word) : Prop := statusDone status = true ∧ statusBusy status = false

theorem completed_startStatus (status : Word) : Completed (startStatus status) :=
  ⟨statusDone_startStatus status, statusBusy_startStatus status⟩

/-- An instruction that does not clear DONE keeps a completed STATUS: it is a START, or does not write STATUS. -/
theorem exec_keeps_completed {i : Instr} {s t : State} (hc : i.clearsDone = false) (h : exec i s = .next t)
    (hs : Completed s.block.status) : Completed t.block.status := by
  obtain ⟨v, -, ht, -⟩ | ⟨hclears, -⟩ | ⟨-, ht, -⟩ := exec_control_cases h
  · exact ht ▸ completed_startStatus _
  · exact absurd (hc.symm.trans hclears) (by decide)
  · exact ht ▸ hs

/-- Settles O36: the START completes, and no instruction of the history undoes it before STATUS is read. -/
theorem doneStaysSetUntilCleared : Obligations.DoneStaysSetUntilCleared := by
  unfold Obligations.DoneStaysSetUntilCleared
  intro s v history hv hhist
  obtain ⟨s₁, hstart⟩ := exec_completes (.writeCtrlStart v) s
  obtain ⟨t, ht⟩ := exists_ran history s₁
  have hstarted : Completed s₁.block.status := by
    cases hstart
    exact completed_startStatus _
  obtain ⟨hdone, hbusy⟩ : Completed t.block.status :=
    ht.keeps (fun i hi _ _ h hs => exec_keeps_completed (hhist i hi).2 h hs) hstarted
  obtain ⟨u, hrun, -, hlast, -⟩ := runSteps_history_read .status (fun i hi => (hhist i hi).1) ht
  have hwf : (Instr.writeCtrlStart v).wf = true := beq_iff_eq.mpr hv
  exact ⟨u, t.block.status, (runSteps_requestOf _ _ hwf hstart).trans hrun, hlast, hdone, hbusy⟩

/-! ## What the DMA registers do not reach (rules R24, R25, R55) -/

/-- Two machines agree on everything a transaction shows but the DMA registers. -/
def AgreeApartFromDma (s s' : State) : Prop :=
  s'.responses = s.responses ∧ s'.block.ctrl = s.block.ctrl ∧ s'.block.status = s.block.status ∧
    s'.block.operationActive = s.block.operationActive

/-- No instruction but the two reads of the DMA registers tells such machines apart. -/
theorem exec_agreeApartFromDma {i : Instr} {s s' t t' : State} (haddr : i ≠ .readDmaAddr) (hlen : i ≠ .readDmaLen)
    (h : exec i s = .next t) (h' : exec i s' = .next t') (hs : AgreeApartFromDma s s') : AgreeApartFromDma t t' := by
  obtain ⟨hresponses, hctrl, hstatus, hactive⟩ := hs
  cases i with
  | readDmaAddr => exact absurd rfl haddr
  | readDmaLen => exact absurd rfl hlen
  | _ => cases h; cases h'; simp [AgreeApartFromDma, hresponses, hctrl, hstatus, hactive]

/-- A history without a read of a DMA register keeps two machines in agreement apart from those registers. -/
theorem Ran.agreeApartFromDma {history : List Instr} {s s' t t' : State}
    (hno : ∀ i ∈ history, i ≠ .readDmaAddr ∧ i ≠ .readDmaLen) (h : Ran history s t) (h' : Ran history s' t')
    (hs : AgreeApartFromDma s s') : AgreeApartFromDma t t' := by
  induction h generalizing s' with
  | nil s =>
    cases h'
    exact hs
  | cons head tail ih =>
    obtain ⟨⟨haddr, hlen⟩, hrest⟩ := List.forall_mem_cons.mp hno
    obtain _ | ⟨head', tail'⟩ := h'
    exact ih hrest tail' (exec_agreeApartFromDma haddr hlen head head' hs)

/-- Settles O41: machines that differ in the DMA registers alone stay in agreement apart from them. -/
theorem dmaRegistersAreNotActedUpon : Obligations.DmaRegistersAreNotActedUpon := by
  unfold Obligations.DmaRegistersAreNotActedUpon
  intro s a l history hhist
  have hwf : ∀ i ∈ history, i.wf = true := fun i hi => (hhist i hi).1
  obtain ⟨t, ht⟩ := exists_ran history s
  obtain ⟨u, hu⟩ := exists_ran history (s.withBlock { s.block with dmaAddr := a, dmaLen := l })
  have hagree : AgreeApartFromDma t u :=
    Ran.agreeApartFromDma (fun i hi => (hhist i hi).2) ht hu ⟨rfl, rfl, rfl, rfl⟩
  exact ⟨t.withPending [], u.withPending [], runSteps_of_ran_all hwf ht, runSteps_of_ran_all hwf hu, hagree⟩

/-! ## A history with its unmapped accesses and without them (rules R90, R91) -/

/-- An unmapped access changes none of the five elements (rules R77, R85). -/
theorem exec_block_of_isUnmapped {i : Instr} {s t : State} (hu : i.isUnmapped = true) (h : exec i s = .next t) :
    t.block = s.block := by
  cases i with
  | readUnmapped _ | writeUnmapped _ _ => cases h; rfl
  | _ => simp [Instr.isUnmapped] at hu

/-- An instruction's answer depends on the block it found, not on what was answered before (rule R9). -/
theorem exec_answers_alike {i : Instr} {s s' t t' : State} (hb : s.block = s'.block) (h : exec i s = .next t)
    (h' : exec i s' = .next t') :
    ∃ r, t.responses = s.responses ++ [r] ∧ t'.responses = s'.responses ++ [r] := by
  cases i with
  | readCtrl | readStatus | readDmaAddr | readDmaLen =>
    cases h; cases h'; exact ⟨_, rfl, by simp [hb]⟩
  | _ => cases h; cases h'; exact ⟨_, rfl, rfl⟩

/-- From two states with one block, a history and the history without its unmapped accesses leave one block, and the
second is answered as the first is, less the answers of the accesses left out. -/
theorem exists_ran_without_unmapped (history : List Instr) {s s' : State} (hb : s.block = s'.block) :
    ∃ t u answers, Ran history s t ∧ Ran (history.filter fun i => !i.isUnmapped) s' u ∧
      t.responses = s.responses ++ answers ∧ answers.length = history.length ∧
      u.responses = s'.responses ++ ((history.zip answers).filter fun p => !p.1.isUnmapped).map Prod.snd ∧
      t.block = u.block := by
  induction history generalizing s s' with
  | nil => exact ⟨s, s', [], .nil s, .nil s', by simp, rfl, by simp, hb⟩
  | cons i history ih =>
    obtain ⟨s₁, h⟩ := exec_completes i s
    obtain ⟨s₁', h'⟩ := exec_completes i s'
    obtain ⟨r, hr, hr'⟩ := exec_answers_alike hb h h'
    cases hi : i.isUnmapped with
    | true =>
      obtain ⟨t, u, answers, ht, hu, htr, hlen, hur, hblock⟩ := ih ((exec_block_of_isUnmapped hi h).trans hb)
      exact ⟨t, u, r :: answers, .cons h ht, by simpa [hi] using hu, by simp [htr, hr], by simp [hlen],
        by simp [hur, hi], hblock⟩
    | false =>
      obtain ⟨t, u, answers, ht, hu, htr, hlen, hur, hblock⟩ := ih (exec_block_congr hb h h')
      exact ⟨t, u, r :: answers, .cons h ht, by simpa [hi] using Ran.cons h' hu, by simp [htr, hr], by simp [hlen],
        by simp [hur, hr', hi], hblock⟩

/-- Settles O23: both histories run, and the answers left out are those of the unmapped accesses. -/
theorem unmappedAccessesAreNotFatal : Obligations.UnmappedAccessesAreNotFatal := by
  unfold Obligations.UnmappedAccessesAreNotFatal
  intro s history hwf
  obtain ⟨t, u, answers, ht, hu, hanswers⟩ := exists_ran_without_unmapped history (s := s) rfl
  have hwfMapped : ∀ i ∈ history.filter fun i => !i.isUnmapped, i.wf = true :=
    fun i hi => hwf i (List.mem_of_mem_filter hi)
  exact ⟨t.withPending [], u.withPending [], answers, runSteps_of_ran_all hwf ht, runSteps_of_ran_all hwfMapped hu,
    hanswers⟩

/-! ## One transaction twice (rules R48, R89) -/

/-- A START over a START changes STATUS no more (rule R79). -/
@[simp] theorem startStatus_startStatus (status : Word) : startStatus (startStatus status) = startStatus status := by
  apply BitVec.eq_of_getLsbD_eq
  intro k _
  simp only [getLsbD_startStatus]
  split_ifs <;> rfl

/-- An instruction run again over the block it left leaves that block. -/
theorem exec_idempotent {i : Instr} {s t u : State} (h : exec i s = .next t) (h' : exec i t = .next u) :
    u.block = t.block := by
  cases i with
  | writeCtrlStart v =>
    cases h; cases h'
    exact congrArg (fun status => Block.mk v status s.block.dmaAddr s.block.dmaLen true)
      (startStatus_startStatus s.block.status)
  | _ => cases h; cases h'; rfl

/-- Settles O38: the second run starts from the block the first one left. -/
theorem transactionsAreIdempotent : Obligations.TransactionsAreIdempotent := by
  unfold Obligations.TransactionsAreIdempotent
  intro i s hwf
  obtain ⟨t, h⟩ := exec_completes i s
  obtain ⟨u, h'⟩ := exec_completes i t
  have hblock : u.block = t.block := exec_idempotent h h'
  have hone : ∀ j ∈ [i], j.wf = true := by simpa using hwf
  have htwo : ∀ j ∈ [i, i], j.wf = true := by simpa using hwf
  exact ⟨t.withPending [], u.withPending [], runSteps_of_ran_all hone (.cons h (.nil t)),
    runSteps_of_ran_all htwo (.cons h (.cons h' (.nil u))), hblock⟩

end Sys2Proof.Machine

/-! PROOFS. The family `other`, part 4: the encoding. The encoder is held against the decoder transaction by
transaction. The opcode map in match and mask form is turned once into what each row asks of the op, the offset and the
command of a word, and the two statements on the map follow from that. -/

namespace Sys2Proof

/-! ## Decoding and encoding -/

/-- The row of a CTRL write is well-formed, and its word keeps the value (rules R66, R72). -/
theorem classifyCtrlWrite_encodes (v : Word) :
    (classifyCtrlWrite v).wf = true ∧ encode (classifyCtrlWrite v) = packWord opBusWrite Reg.ctrl.offset v := by
  rw [classifyCtrlWrite]
  cases hc : commandOf v <;> exact ⟨beq_iff_eq.mpr hc, rfl⟩

/-- The row of a transaction is well-formed, and its word is the transaction's canonical word (rules R60, R72). -/
theorem classify_encodes (x : Txn) : (classify x).wf = true ∧ encode (classify x) = encodeTxn x := by
  cases x with
  | busRead offset =>
    rw [classify, classifyRead]
    cases ho : decodeOffset offset with
    | unmapped => exact ⟨beq_iff_eq.mpr ho, rfl⟩
    | mapped r =>
      obtain rfl := offset_of_decode_mapped ho
      cases r <;> exact ⟨rfl, rfl⟩
  | busWrite offset v =>
    rw [classify, classifyWrite]
    cases ho : decodeOffset offset with
    | unmapped => exact ⟨beq_iff_eq.mpr ho, rfl⟩
    | mapped r =>
      obtain rfl := offset_of_decode_mapped ho
      cases r with
      | ctrl => exact classifyCtrlWrite_encodes v
      | status | dmaAddr | dmaLen => exact ⟨rfl, rfl⟩
  | reset => exact ⟨rfl, rfl⟩

/-! ## The fields of a mask and of a pattern -/

/-- A masked word has the masked fields. -/
theorem opField_and (T M : TxnWord) : opField (T &&& M) = opField T &&& opField M := BitVec.extractLsb'_and

theorem offsetField_and (T M : TxnWord) : offsetField (T &&& M) = offsetField T &&& offsetField M :=
  BitVec.extractLsb'_and

theorem wdataField_and (T M : TxnWord) : wdataField (T &&& M) = wdataField T &&& wdataField M :=
  BitVec.extractLsb'_and

/-- Two transaction words are equal exactly when their three fields are (rule R59). -/
theorem txnWord_eq_iff {T T' : TxnWord} :
    T = T' ↔ opField T = opField T' ∧ offsetField T = offsetField T' ∧ wdataField T = wdataField T' := by
  constructor
  · rintro rfl
    exact ⟨rfl, rfl, rfl⟩
  · rintro ⟨hop, hoffset, hwdata⟩
    rw [← packWord_fields T, ← packWord_fields T', hop, hoffset, hwdata]

/-- A word matches a row when each of its fields does. -/
theorem Row.matchesWord_iff_fields (r : Row) (T : TxnWord) :
    r.matchesWord T = true ↔
      opField T &&& opField r.mask = opField r.pattern ∧
      offsetField T &&& offsetField r.mask = offsetField r.pattern ∧
      wdataField T &&& wdataField r.mask = wdataField r.pattern := by
  rw [Row.matchesWord, beq_iff_eq, txnWord_eq_iff, opField_and, offsetField_and, wdataField_and]

/-! ## What a row asks of the command bits -/

/-- The mask 0x1 of a value holds its START bit (rule R18). -/
theorem and_startMask (v : Word) :
    v &&& 0x00000001#32 = if v.getLsbD startBit then 0x00000001#32 else 0x00000000#32 :=
  BitVec.and_twoPow v startBit

/-- The mask 0x3 of a value holds its START and its RESET bit (rule R18). -/
theorem and_commandMask (v : Word) :
    v &&& 0x00000003#32 =
      (if v.getLsbD startBit then 0x00000001#32 else 0x00000000#32) |||
        (if v.getLsbD resetBit then 0x00000002#32 else 0x00000000#32) := by
  rw [show (0x00000003#32 : Word) = BitVec.twoPow 32 startBit ||| BitVec.twoPow 32 resetBit by decide,
    BitVec.and_or_distrib_left, BitVec.and_twoPow, BitVec.and_twoPow]
  rfl

/-- The masked values the rows of a CTRL write are matched with are those of their commands (rules R63, R72). -/
theorem and_startMask_eq_iff {v : Word} : v &&& 0x00000001#32 = 0x00000001#32 ↔ commandOf v = .start := by
  rw [and_startMask]
  obtain ⟨hc, h0⟩ | ⟨hc, h0, -⟩ | ⟨hc, h0, -⟩ := commandOf_cases v <;> simp [hc, h0]

theorem and_commandMask_eq_two_iff {v : Word} :
    v &&& 0x00000003#32 = 0x00000002#32 ↔ commandOf v = .reset := by
  rw [and_commandMask]
  obtain ⟨hc, h0⟩ | ⟨hc, h0, h1⟩ | ⟨hc, h0, h1⟩ := commandOf_cases v
  · cases h1 : v.getLsbD resetBit <;> simp [hc, h0]
  · simp [hc, h0, h1]
  · simp [hc, h0, h1]

theorem and_commandMask_eq_zero_iff {v : Word} :
    v &&& 0x00000003#32 = 0x00000000#32 ↔ commandOf v = .unrecognized := by
  rw [and_commandMask]
  obtain ⟨hc, h0⟩ | ⟨hc, h0, h1⟩ | ⟨hc, h0, h1⟩ := commandOf_cases v
  · cases h1 : v.getLsbD resetBit <;> simp [hc, h0]
  · simp [hc, h0, h1]
  · simp [hc, h0, h1]

/-! ## What a row asks of a word -/

/-- What a row of the opcode map asks of a word's op, of what its offset decodes to and of its value's command (rule
R72). -/
def Row.asks (op : BitVec 2) (target : Target) (command : Command) : Row → Bool
  | .readCtrl => op == opBusRead && target == .mapped .ctrl
  | .readStatus => op == opBusRead && target == .mapped .status
  | .readDmaAddr => op == opBusRead && target == .mapped .dmaAddr
  | .readDmaLen => op == opBusRead && target == .mapped .dmaLen
  | .readUnmapped => op == opBusRead
  | .writeCtrlStart => op == opBusWrite && target == .mapped .ctrl && command == .start
  | .writeCtrlReset => op == opBusWrite && target == .mapped .ctrl && command == .reset
  | .writeCtrlNocmd => op == opBusWrite && target == .mapped .ctrl && command == .unrecognized
  | .writeStatus => op == opBusWrite && target == .mapped .status
  | .writeDmaAddr => op == opBusWrite && target == .mapped .dmaAddr
  | .writeDmaLen => op == opBusWrite && target == .mapped .dmaLen
  | .writeUnmapped => op == opBusWrite
  | .reset => op == opReset

/-- The match and mask numbers of a row say what the row asks. -/
theorem Row.matchesWord_eq_asks (r : Row) (T : TxnWord) :
    r.matchesWord T = r.asks (opField T) (decodeOffset (offsetField T)) (commandOf (wdataField T)) := by
  have hop : ∀ op : BitVec 2, op &&& 0b11#2 = op := by decide
  have hoffset : ∀ offset : Word, offset &&& 0xFFFFFFFF#32 = offset := fun offset => BitVec.and_allOnes
  rw [Bool.eq_iff_iff, Row.matchesWord_iff_fields]
  cases r <;>
    simp [Row.asks, Row.mask, Row.pattern, opField, offsetField, wdataField, hop, hoffset, opBusRead, opBusWrite,
      opReset, decodeOffset_eq_mapped_iff, Reg.offset, and_startMask_eq_iff, and_commandMask_eq_two_iff,
      and_commandMask_eq_zero_iff, and_assoc]

/-- The first row a word matches is the first that asks what the word has. -/
theorem firstRow_eq (T : TxnWord) :
    firstRow T =
      opcodeMap.find? fun r => r.asks (opField T) (decodeOffset (offsetField T)) (commandOf (wdataField T)) := by
  rw [firstRow]
  exact congrArg (opcodeMap.find? ·) (funext fun r => r.matchesWord_eq_asks T)

/-- A row that is no default row, and that a word matches, is the first that the word matches: every row before it asks
another op, offset or command. -/
theorem firstRow_of_plain {r : Row} {T : TxnWord} (hplain : r.isDefault = false) (h : r.matchesWord T = true) :
    firstRow T = some r := by
  rw [Row.matchesWord_eq_asks] at h
  rw [firstRow_eq]
  cases r with
  | readUnmapped | writeUnmapped => simp [Row.isDefault] at hplain
  | _ =>
    simp only [Row.asks, Bool.and_eq_true, beq_iff_eq] at h
    simp only [h]
    rfl

/-! ## The statements -/

/-- Settles O1: the word of a well-formed instruction decodes in the order of rule R66 to its row. -/
theorem decodeOfEncodeIsIdentity : Obligations.DecodeOfEncodeIsIdentity := by
  unfold Obligations.DecodeOfEncodeIsIdentity
  exact fun _ hwf => decode_encode hwf

/-- Settles O2: a decoded instruction is the row of the word's transaction, whose canonical word is its own. -/
theorem encodeOfDecodeIsCanonical : Obligations.EncodeOfDecodeIsCanonical := by
  unfold Obligations.EncodeOfDecodeIsCanonical
  intro T i h
  obtain ⟨x, hx, rfl⟩ := decodeTxn_of_decode h
  rw [canonical, hx]
  exact classify_encodes x

/-- Settles O4: op by op, the first row that asks what the word has is the row the decode functions come to. -/
theorem decoderAgreesWithOpcodeMap : Obligations.DecoderAgreesWithOpcodeMap := by
  unfold Obligations.DecoderAgreesWithOpcodeMap
  intro T
  rw [firstRow_eq]
  obtain hop | hop | hop | hop := opField_cases T
  · rw [decode_of_decodeTxn (decodeTxn_of_opBusRead hop), hop, classify, classifyRead]
    cases decodeOffset (offsetField T) with
    | unmapped => rfl
    | mapped r => cases r <;> rfl
  · rw [decode_of_decodeTxn (decodeTxn_of_opBusWrite hop), hop, classify, classifyWrite, classifyCtrlWrite]
    cases decodeOffset (offsetField T) with
    | unmapped => rfl
    | mapped r =>
      cases r with
      | ctrl => cases commandOf (wdataField T) <;> rfl
      | status | dmaAddr | dmaLen => rfl
  · rw [decode_of_decodeTxn (decodeTxn_of_opReset hop), hop]
    rfl
  · rw [decode, decodeTxn_of_reserved hop, hop]
    rfl

/-- Settles O5: each of the two rows is the first that the word matches. -/
theorem noTwoPlainRowsMatchOneWord : Obligations.NoTwoPlainRowsMatchOneWord := by
  unfold Obligations.NoTwoPlainRowsMatchOneWord
  intro r r' T hplain hplain' h h'
  exact Option.some.inj ((firstRow_of_plain hplain h).symm.trans (firstRow_of_plain hplain' h'))

/-- Settles O8, by running the decoder on the nine words. -/
theorem sampleWordsDecode : Obligations.SampleWordsDecode := by
  unfold Obligations.SampleWordsDecode
  exact ⟨rfl, rfl, rfl, rfl, rfl, rfl, rfl, rfl, rfl⟩

end Sys2Proof

/-! PROOFS. The family `other`, part 5: systems of blocks and several bus masters. -/

namespace Sys2Proof.Machine

/-! ## The order of a system reset (rule R112) -/

/-- Two blocks can be reset in either order. -/
theorem resetAt_comm (sys : System) (j k : Nat) : resetAt (resetAt sys j) k = resetAt (resetAt sys k) j := by
  by_cases h : j = k
  · rw [h]
  · exact List.modify_modify_ne State.completeReset State.completeReset sys h

/-- Settles O43: one `Reset()` commutes with another, so a permuted list of them folds to the same system. -/
theorem systemResetOrderDoesNotMatter : Obligations.SystemResetOrderDoesNotMatter := by
  unfold Obligations.SystemResetOrderDoesNotMatter
  intro sys order order' hperm
  exact hperm.foldl_eq' (fun j _ k _ sys => resetAt_comm sys j k) sys

/-! ## The order of each master (rule R50) -/

/-- What an interleaving that delivers did first: it took the oldest request of the first master the schedule names. -/
theorem serialise_cons_cases {α : Type} {m : Nat} {schedule : List Nat} {streams rest : List (List α)}
    {delivered : List (Nat × α)} (h : serialise (m :: schedule) streams = some (delivered, rest)) :
    ∃ x xs delivered', streams[m]? = some (x :: xs) ∧ delivered = (m, x) :: delivered' ∧
      serialise schedule (streams.set m xs) = some (delivered', rest) := by
  unfold serialise at h
  split at h
  case h_1 x xs hm =>
    obtain ⟨⟨delivered', rest'⟩, hserialise, heq⟩ := Option.map_eq_some_iff.mp h
    cases heq
    exact ⟨x, xs, delivered', hm, rfl, hserialise⟩
  case h_2 => cases h

theorem deliveredBy_cons {α : Type} (m k : Nat) (x : α) (delivered : List (Nat × α)) :
    deliveredBy m ((k, x) :: delivered) =
      if k = m then x :: deliveredBy m delivered else deliveredBy m delivered := by
  by_cases h : k = m <;> simp [deliveredBy, h]

/-- Taking one request from a master's stream, and putting it before what that master has delivered, leaves every
master's stream as it was. -/
theorem getD_set_of_getElem? {α : Type} {streams : List (List α)} {k : Nat} {x : α} {xs : List α}
    (hk : streams[k]? = some (x :: xs)) (m : Nat) :
    streams.getD m [] = if k = m then x :: (streams.set k xs).getD m [] else (streams.set k xs).getD m [] := by
  have hlt : k < streams.length := (List.getElem?_eq_some_iff.mp hk).1
  by_cases h : k = m
  · subst h
    rw [if_pos rfl, List.getD_eq_getElem?_getD, List.getD_eq_getElem?_getD, hk, List.getElem?_set_self hlt]
    rfl
  · rw [if_neg h, List.getD_eq_getElem?_getD, List.getD_eq_getElem?_getD, List.getElem?_set_ne h]

/-- An interleaving that delivers follows its schedule and splits each master's stream into what was delivered of it
and what is left. -/
theorem serialise_keeps_streams {α : Type} {schedule : List Nat} {streams rest : List (List α)}
    {delivered : List (Nat × α)} (h : serialise schedule streams = some (delivered, rest)) :
    rest.length = streams.length ∧ delivered.map Prod.fst = schedule ∧
      ∀ m, deliveredBy m delivered ++ rest.getD m [] = streams.getD m [] := by
  induction schedule generalizing streams delivered with
  | nil =>
    cases h
    exact ⟨rfl, rfl, fun _ => rfl⟩
  | cons k schedule ih =>
    obtain ⟨x, xs, delivered', hk, rfl, htail⟩ := serialise_cons_cases h
    obtain ⟨hlength, hschedule, hstreams⟩ := ih htail
    refine ⟨hlength.trans List.length_set, congrArg (k :: ·) hschedule, fun m => ?_⟩
    rw [deliveredBy_cons, getD_set_of_getElem? hk, ← hstreams m]
    split_ifs <;> rfl

/-- Settles O44, by induction on the schedule. -/
theorem interleavingKeepsEachMastersOrder : Obligations.InterleavingKeepsEachMastersOrder := by
  unfold Obligations.InterleavingKeepsEachMastersOrder
  exact fun _ _ _ _ h => serialise_keeps_streams h

end Sys2Proof.Machine

/-! PROOFS. The family `other`, part 6: the platform's bus. Big-endian order is little-endian order from the other end,
so the facts about lanes are proved for little-endian lanes and carried over. -/

namespace Sys2Proof.Machine

/-! ## Byte lanes (rule R43) -/

/-- Big-endian order has the lanes of little-endian order from the other end. -/
theorem byteLane_big (w : Word) (k : Fin 4) : byteLane .big w k = byteLane .little w k.rev := by
  rw [byteLane, byteLane, Fin.val_rev]
  congr 1
  omega

theorem wordOfLanes_big (b0 b1 b2 b3 : Byte) : wordOfLanes .big b0 b1 b2 b3 = wordOfLanes .little b3 b2 b1 b0 := rfl

/-- Bit `i` of little-endian lane `k` is bit `8k + i` of the word. -/
theorem getLsbD_byteLane_little (w : Word) (k : Fin 4) {i : Nat} (hi : i < 8) :
    (byteLane .little w k).getLsbD i = w.getLsbD (8 * k.val + i) := by
  simp [byteLane, hi]

/-- The word of four lanes has bit `i` of lane `k` as its bit `8k + i`. -/
theorem getLsbD_wordOfLanes_little (d : Lanes) (k : Fin 4) {i : Nat} (hi : i < 8) :
    (wordOfLanes .little d.b0 d.b1 d.b2 d.b3).getLsbD (8 * k.val + i) = (d.get k).getLsbD i := by
  simp only [wordOfLanes, BitVec.getLsbD_append]
  match k with
  | 0 => simp [hi]
  | 1 => simp [hi]
  | 2 => simp [hi, show ¬ 16 + i < 8 by omega, show ¬ 16 + i - 8 < 8 by omega, show 16 + i - 8 - 8 = i by omega]
  | 3 =>
    simp [hi, show ¬ 24 + i < 8 by omega, show ¬ 24 + i - 8 < 8 by omega, show ¬ 24 + i - 8 - 8 < 8 by omega,
      show 24 + i - 8 - 8 - 8 = i by omega]

/-- Every bit of a word is a bit of one of its lanes. -/
theorem exists_lane_bit {j : Nat} (hj : j < 32) : ∃ (k : Fin 4) (i : Nat), i < 8 ∧ j = 8 * k.val + i :=
  ⟨⟨j / 8, by omega⟩, j % 8, by omega, by simp only; omega⟩

/-- The lanes of a word put together from four bytes are those bytes. -/
theorem byteLane_wordOfLanes (o : ByteOrder) (d : Lanes) (k : Fin 4) :
    byteLane o (wordOfLanes o d.b0 d.b1 d.b2 d.b3) k = d.get k := by
  have hlittle (d : Lanes) (k : Fin 4) : byteLane .little (wordOfLanes .little d.b0 d.b1 d.b2 d.b3) k = d.get k := by
    apply BitVec.eq_of_getLsbD_eq
    intro i hi
    rw [getLsbD_byteLane_little _ _ hi, getLsbD_wordOfLanes_little _ _ hi]
  cases o with
  | little => exact hlittle d k
  | big =>
    rw [byteLane_big, wordOfLanes_big]
    exact (hlittle ⟨d.b3, d.b2, d.b1, d.b0⟩ k.rev).trans (by fin_cases k <;> rfl)

/-- The lanes of a word, put together, are the word. -/
theorem wordOfLanes_byteLane (o : ByteOrder) (w : Word) :
    wordOfLanes o (byteLane o w 0) (byteLane o w 1) (byteLane o w 2) (byteLane o w 3) = w := by
  have hlittle : wordOfLanes .little (byteLane .little w 0) (byteLane .little w 1) (byteLane .little w 2)
      (byteLane .little w 3) = w := by
    apply BitVec.eq_of_getLsbD_eq
    intro j hj
    obtain ⟨k, i, hi, rfl⟩ := exists_lane_bit hj
    rw [getLsbD_wordOfLanes_little ⟨byteLane .little w 0, byteLane .little w 1, byteLane .little w 2,
      byteLane .little w 3⟩ k hi, ← getLsbD_byteLane_little w k hi]
    fin_cases k <;> rfl
  cases o with
  | little => exact hlittle
  | big => exact hlittle

/-! ## The bytes of a word at their addresses (rule R43) -/

/-- The byte at a lane's address is the lane. -/
theorem busByte_laneAddr (p : Platform) (offset w : Word) (k : Fin 4) :
    busByte p offset w (laneAddr p offset k) = some (byteLane p.busByteOrder w k) := by
  unfold busByte
  fin_cases k <;> simp

/-- An address below or past the four bytes carries none of them. -/
theorem busByte_eq_none {p : Platform} {offset w : Word} {addr : Nat}
    (h : addr < p.periphBase + offset.toNat ∨ p.periphBase + offset.toNat + 4 ≤ addr) :
    busByte p offset w addr = none := by
  have hne (k : Fin 4) : addr ≠ laneAddr p offset k := by
    rw [laneAddr]
    omega
  simp [busByte, hne]

/-! ## The translation of an address (rule R41) -/

/-- An address translates to an offset exactly when it is the base plus the offset, with the offset in the range. -/
theorem offsetOfAddr_eq_some_iff {p : Platform} (hp : p.wf = true) {addr : Nat} {offset : Word} :
    offsetOfAddr p addr = some offset ↔ addr = p.periphBase + offset.toNat ∧ offset.toNat < p.periphSpan := by
  have hspan : p.periphSpan ≤ 2 ^ 32 := by
    rw [Platform.wf, Bool.and_eq_true, decide_eq_true_eq, decide_eq_true_eq] at hp
    exact hp.2
  rw [offsetOfAddr, Option.ite_none_right_eq_some, Option.some.injEq]
  constructor
  · rintro ⟨⟨hbase, hlt⟩, rfl⟩
    rw [BitVec.toNat_ofNat, Nat.mod_eq_of_lt (by omega)]
    omega
  · rintro ⟨rfl, hlt⟩
    refine ⟨by omega, ?_⟩
    rw [Nat.add_sub_cancel_left, BitVec.ofNat_toNat, BitVec.setWidth_eq]

/-- The registers stand below offset 0x10 (rule R39). -/
theorem toNat_regOffset_lt (r : Reg) : r.offset.toNat < 0x10 := by
  cases r <;> decide

/-- An offset from 0x10 on is the offset of no register (rule R40). -/
theorem decodeOffset_of_ge {offset : Word} (h : 0x10 ≤ offset.toNat) : decodeOffset offset = .unmapped := by
  rw [decodeOffset_eq_unmapped_iff]
  rintro r rfl
  exact absurd h (Nat.not_le.mpr (toNat_regOffset_lt r))

/-- The first byte of a register's word translates to the register's offset on every platform D5 allows. -/
theorem offsetOfAddr_reg {p : Platform} (hp : p.wf = true) (r : Reg) :
    offsetOfAddr p (laneAddr p r.offset 0) = some r.offset := by
  have hspan : 0x10 ≤ p.periphSpan := by
    rw [Platform.wf, Bool.and_eq_true, decide_eq_true_eq, decide_eq_true_eq] at hp
    exact hp.1
  exact (offsetOfAddr_eq_some_iff hp).mpr ⟨rfl, (toNat_regOffset_lt r).trans_le hspan⟩

/-! ## The request of an access (rules R41, R42) -/

/-- The canonical word of a transaction selects the transaction (rule R60). -/
theorem decodeTxn_encodeTxn (x : Txn) : decodeTxn (encodeTxn x) = .ok x := by
  cases x with
  | busRead offset => exact decodeTxn_read offset _
  | busWrite offset v => exact decodeTxn_write offset v
  | reset => exact decodeTxn_reset _ _

theorem routeAccess_of_offset {p : Platform} {a : BusAccess} {offset : Word} (h : offsetOfAddr p a.addr = some offset) :
    routeAccess p a = some { bytes := a.bytes, word := encodeTxn (a.txn p offset) } := by
  rw [routeAccess, h, Option.map_some]

/-- No bus access is a `Reset()`. -/
theorem BusAccess.txn_ne_reset (p : Platform) (a : BusAccess) (offset : Word) : a.txn p offset ≠ .reset := by
  rw [BusAccess.txn]
  split_ifs <;> simp

/-! ## The statements -/

/-- Settles O45, in both byte orders by way of little-endian order. -/
theorem byteLanesCarryTheWord : Obligations.ByteLanesCarryTheWord := by
  unfold Obligations.ByteLanesCarryTheWord
  refine ⟨wordOfLanes_byteLane, fun o b0 b1 b2 b3 => ?_, fun w k _ hi => getLsbD_byteLane_little w k hi⟩
  have hlane := byteLane_wordOfLanes o ⟨b0, b1, b2, b3⟩
  exact ⟨hlane 0, hlane 1, hlane 2, hlane 3⟩

/-- Settles O46: the translation is the base plus the offset, in both directions. -/
theorem busAddressesTranslateToOffsets : Obligations.BusAddressesTranslateToOffsets := by
  unfold Obligations.BusAddressesTranslateToOffsets
  intro p hp
  refine ⟨fun offset hlt => (offsetOfAddr_eq_some_iff hp).mpr ⟨rfl, hlt⟩,
    fun addr offset h => (offsetOfAddr_eq_some_iff hp).mp h, fun addr offset h hge => ?_⟩
  obtain ⟨rfl, -⟩ := (offsetOfAddr_eq_some_iff hp).mp h
  exact decodeOffset_of_ge (Nat.le_of_add_le_add_left hge)

/-- Settles O47: the access becomes a request with the canonical word of its transaction and the access's width. -/
theorem wholeWordAccessesAreTransactions : Obligations.WholeWordAccessesAreTransactions := by
  unfold Obligations.WholeWordAccessesAreTransactions
  intro p a offset s rest ho
  refine ⟨_, routeAccess_of_offset ho, fun hbytes => ?_, fun hbytes => ?_⟩
  · rw [hbytes]
    exact step_transact (s := s.withPending _) rfl (decodeTxn_encodeTxn _)
  · exact step_of_rejected rfl
      (acceptRequest_of_bytes_ne (decodeTxn_encodeTxn _) (BusAccess.txn_ne_reset p a offset) hbytes)

/-- Settles O49: the four lanes stand at four addresses in a row, in the platform's byte order. -/
theorem busBytesStandAtTheirAddresses : Obligations.BusBytesStandAtTheirAddresses := by
  unfold Obligations.BusBytesStandAtTheirAddresses
  refine ⟨fun _ _ => rfl, fun p offset w => ⟨busByte_laneAddr p offset w, fun _ => busByte_eq_none, ?_⟩⟩
  intro ho k i hi
  have hbyte : busByte p offset w (p.periphBase + offset.toNat + k.val) = some (byteLane p.busByteOrder w k) :=
    busByte_laneAddr p offset w k
  rw [hbyte, ho, Option.map_some, getLsbD_byteLane_little w k hi]

/-- Settles O50: the write leaves the word of the bytes in the register, the read answers it, and its lanes are the
bytes. -/
theorem busBytesWrittenAreReadBack : Obligations.BusBytesWrittenAreReadBack := by
  unfold Obligations.BusBytesWrittenAreReadBack
  intro p s rest r data other hp hr
  refine ⟨_, _, routeAccess_of_offset (offsetOfAddr_reg hp r), routeAccess_of_offset (offsetOfAddr_reg hp r), ?_⟩
  obtain ⟨t, hrun, hpending, hresponses⟩ :=
    runSteps_busWrite_busRead (s := s.withPending (Request.whole (packWord opBusWrite r.offset (busWord p data)) ::
      Request.whole (packWord opBusRead r.offset 0#32) :: rest)) r rfl
  rw [State.withPending_block, Block.get_writeOp_same s.block (busWord p data) hr] at hresponses
  refine ⟨t, _, hrun, hpending, hresponses, fun k => ?_⟩
  rw [respByte_readData, busByte_laneAddr, busWord, byteLane_wordOfLanes]

end Sys2Proof.Machine

/-! PROOFS. The family `other`, part 7: the script lines. A word is written in eight digits that read back as its
number, and a written word holds no character that ends a token, so a line falls into the tokens it was written from. -/

namespace Sys2Proof.Machine

/-! ## Reading back a written word (rules R6, R69) -/

theorem hexValue_hexDigit (n : BitVec 4) : hexValue (hexDigit n) = some n.toNat := by
  have hall : ∀ n : BitVec 4, hexValue (hexDigit n) = some n.toNat := by decide
  exact hall n

theorem readDigits_nil (n : Nat) : readDigits n [] = some n := rfl

/-- Reading a written digit adds it to the number read so far. -/
theorem readDigits_hexDigit_cons (n : Nat) (d : BitVec 4) (cs : List Char) :
    readDigits n (hexDigit d :: cs) = readDigits (16 * n + d.toNat) cs := by
  rw [readDigits, hexValue_hexDigit]

/-- Reading the digit of weight `16 ^ k` of a word, after those above it, gives the word's number down to that digit. -/
theorem readDigits_digit_cons (w : Word) (k : Nat) (cs : List Char) :
    readDigits (w.toNat / 16 ^ (k + 1)) (hexDigit (w.extractLsb' (4 * k) 4) :: cs) =
      readDigits (w.toNat / 16 ^ k) cs := by
  rw [readDigits_hexDigit_cons, BitVec.extractLsb'_toNat, Nat.shiftRight_eq_div_pow, pow_mul, pow_succ,
    ← Nat.div_div_eq_div_mul]
  exact congrArg (readDigits · cs) (Nat.div_add_mod _ 16)

/-- The eight digits of a word read back as its number. -/
theorem readDigits_hexWord (w : Word) : readDigits 0 (hexWord w) = some w.toNat := by
  have hnone : 0 = w.toNat / 16 ^ 8 := (Nat.div_eq_of_lt w.isLt).symm
  have hall : w.toNat / 16 ^ 0 = w.toNat := Nat.div_one _
  rw [hnone, hexWord]
  simp only [List.map_cons, List.map_nil, readDigits_digit_cons, readDigits_nil, hall]

/-- A written word reads back as the word. -/
theorem readWord_writeWord (w : Word) : readWord (writeWord w) = some w := by
  have hdigits := readDigits_hexWord w
  rw [hexWord, List.map_cons] at hdigits
  rw [writeWord, hexWord, List.map_cons, readWord, hdigits]
  simp [w.isLt]

/-- A written word is no register name, since it begins with `0`. -/
theorem readOffset_writeWord (w : Word) : readOffset (writeWord w) = some w := by
  rw [← readWord_writeWord w]
  simp [readOffset, writeWord]

/-! ## The tokens of a written line (rule R69) -/

/-- A character that stands inside a token: it begins no comment and ends no token. -/
def isTokenChar (c : Char) : Bool := c ≠ ';' && c ≠ ' ' && c ≠ '\t' && c ≠ ','

/-- Characters that stand inside a token join the token read so far. -/
theorem tokens_append {word : List Char} (h : ∀ c ∈ word, isTokenChar c = true) (current rest : List Char) :
    tokens current (word ++ rest) = tokens (word.reverse ++ current) rest := by
  induction word generalizing current with
  | nil => rfl
  | cons c word ih =>
    obtain ⟨hc, hword⟩ := List.forall_mem_cons.mp h
    simp only [isTokenChar, Bool.and_eq_true, decide_eq_true_eq] at hc
    obtain ⟨⟨⟨hcomment, hspace⟩, htab⟩, hcomma⟩ := hc
    rw [List.cons_append, tokens, if_neg hcomment, if_neg (not_or.mpr ⟨hspace, htab⟩), if_neg hcomma, ih hword,
      List.reverse_cons, List.append_assoc, List.singleton_append]

/-- A token ends at a blank. -/
theorem tokens_blank {word : List Char} (h : ∀ c ∈ word, isTokenChar c = true) (hne : word ≠ [])
    (rest : List Char) :
    tokens [] (word ++ ' ' :: rest) = word :: tokens [] rest := by
  rw [tokens_append h, tokens]
  simp [endToken, hne]

/-- A token ends at a comma, which is a token of its own. -/
theorem tokens_comma {word : List Char} (h : ∀ c ∈ word, isTokenChar c = true) (hne : word ≠ [])
    (rest : List Char) :
    tokens [] (word ++ ',' :: rest) = word :: [','] :: tokens [] rest := by
  rw [tokens_append h, tokens]
  simp [endToken, hne]

/-- A token ends at the end of the line. -/
theorem tokens_end {word : List Char} (h : ∀ c ∈ word, isTokenChar c = true) (hne : word ≠ []) :
    tokens [] word = [word] := by
  have happend := tokens_append h [] []
  rw [List.append_nil] at happend
  rw [happend, tokens]
  simp [endToken, hne]

/-- A written word stands inside one token. -/
theorem isTokenChar_of_mem_writeWord (w : Word) : ∀ c ∈ writeWord w, isTokenChar c = true := by
  have hdigit : ∀ n : BitVec 4, isTokenChar (hexDigit n) = true := by decide
  intro c hc
  rw [writeWord, hexWord, List.mem_cons, List.mem_cons, List.mem_map] at hc
  obtain rfl | rfl | ⟨k, -, rfl⟩ := hc
  · decide
  · decide
  · exact hdigit _

theorem writeWord_ne_nil (w : Word) : writeWord w ≠ [] := List.cons_ne_nil _ _

/-! ## The statement -/

theorem tokens_writeScript_busRead (offset : Word) :
    tokens [] (writeScript (.busRead offset)) = [['R', 'D'], writeWord offset] := by
  have hline : writeScript (.busRead offset) = ['R', 'D'] ++ ' ' :: writeWord offset := rfl
  rw [hline, tokens_blank (word := ['R', 'D']) (by simp [isTokenChar]) (List.cons_ne_nil _ _),
    tokens_end (isTokenChar_of_mem_writeWord offset) (writeWord_ne_nil offset)]

theorem tokens_writeScript_busWrite (offset v : Word) :
    tokens [] (writeScript (.busWrite offset v)) = [['W', 'R'], writeWord offset, [','], writeWord v] := by
  have hline : writeScript (.busWrite offset v) =
      ['W', 'R'] ++ ' ' :: (writeWord offset ++ ',' :: ' ' :: writeWord v) := rfl
  have hblank : tokens [] (' ' :: writeWord v) = tokens [] (writeWord v) := rfl
  rw [hline, tokens_blank (word := ['W', 'R']) (by simp [isTokenChar]) (List.cons_ne_nil _ _),
    tokens_comma (isTokenChar_of_mem_writeWord offset) (writeWord_ne_nil offset), hblank,
    tokens_end (isTokenChar_of_mem_writeWord v) (writeWord_ne_nil v)]

/-- Settles O48: the tokens of a written line are its keyword and its words, and each reads back. -/
theorem scriptLineIsItsTransaction : Obligations.ScriptLineIsItsTransaction := by
  unfold Obligations.ScriptLineIsItsTransaction
  intro x
  cases x with
  | busRead offset => simp [readScript, tokens_writeScript_busRead, readOffset_writeWord]
  | busWrite offset v =>
    simp [readScript, tokens_writeScript_busWrite, readOffset_writeWord, readWord_writeWord]
  | reset => decide

end Sys2Proof.Machine
